-- ==== Sys2Proof/Word.lean ====
section
/-! DEFINITION. The words of B64CORE: every value is unsigned and bit 0 is its least significant bit
(00_scope.md R13). Field widths: 00_scope.md R11. -/

namespace Sys2Proof

/-- One raw byte (`BYTE_W` = 8) or one symbol of encoded text (`SYM_W` = 8), R11. -/
abbrev Byte := BitVec 8

/-- An alphabet index or a decoded value (`IDX_W` = 6), R11. -/
abbrev Index := BitVec 6

/-- A text length, a position or a group count (`LEN_W` = 32), R11; also a `DATA` or `RDATA` field. -/
abbrev Word := BitVec 32

/-- A command word (`CMD_W` = 64), R61. -/
abbrev CmdWord := BitVec 64

/-- A response word (`RSP_W` = 40), R63. -/
abbrev RspWord := BitVec 40

end Sys2Proof
end

