-- ==== Sys2Proof/Syntax.lean ====
section
/-! DEFINITION. The nine commands of `B64CORE-v1` (00_scope.md R3), one constructor per row of
spec/opcode_table.json, with the operands of 30_encoding.md R62. The bits R62 calls ignored are no operands:
no rule reads them (log entry 12). -/

namespace Sys2Proof

/-- A command of the block. -/
inductive Instr where
  /-- `ENC3 a, b, c`: expand a full group of three bytes (R75). -/
  | enc3 (a b c : Byte)
  /-- `ENC2 a, b`: expand a final group of two bytes (R76). -/
  | enc2 (a b : Byte)
  /-- `ENC1 a`: expand a final group of one byte (R77). -/
  | enc1 (a : Byte)
  /-- `ENC0`: a group of no bytes (R78). -/
  | enc0
  /-- `DSTART len`: start the decode of a text of `len` octets (R85). -/
  | dstart (len : Word)
  /-- `DGRP s0, s1, s2, s3`: decode the next group of four symbols (R86). -/
  | dgrp (s0 s1 s2 s3 : Byte)
  /-- `LUTF idx`: read the alphabet table (R96). -/
  | lutf (idx : Index)
  /-- `LUTI sym`: read the inverse-alphabet table (R97). -/
  | luti (sym : Byte)
  /-- `DRD regno`: read a decoder status register (R95). -/
  | drd (regno : Byte)
deriving DecidableEq, Repr

/-- Why the decoder rejects a command word: the three causes of R66, in its order (R107 items 1 to 3). -/
inductive Reject where
  /-- `OP` is outside the table of R65. -/
  | reservedOpcode
  /-- `RSV` is not 0. -/
  | reservedField
  /-- `DRD` with `REGNO > 3`. -/
  | reservedRegister
deriving DecidableEq, Repr

end Sys2Proof
end

