-- ==== Sys2Proof/WellFormed.lean ====
section
/-! DEFINITION. Which commands can be written. The operand widths are in the types of `Instr`; what is left is
that a status-register number is one of 0..3 (10_state.md R43, 30_encoding.md R69 `DRD r`). -/

namespace Sys2Proof

/-- The status-register numbers 4..255 are reserved (R43, R56). -/
def regnoImplemented (regno : Byte) : Bool := decide (regno.toNat ≤ 3)

/-- A command with operands the spec admits (R43, R69). -/
def Instr.wf : Instr → Bool
  | .enc3 _ _ _ => true
  | .enc2 _ _ => true
  | .enc1 _ => true
  | .enc0 => true
  | .dstart _ => true
  | .dgrp _ _ _ _ => true
  | .lutf _ => true
  | .luti _ => true
  | .drd regno => regnoImplemented regno

end Sys2Proof
end

