-- ==== Sys2Proof/Decode.lean ====
section
/-! DEFINITION. The command word and its decoding (30_encoding.md R61, R62, R65, R66), and after it the encoder
(R69). Decoding is total: each of the `2^64` words is a command or rejected by name. -/

namespace Sys2Proof

/-- `OP = cmd[63:56]` (R61). -/
def cmdOp (w : CmdWord) : Byte := w.extractLsb' 56 8

/-- `RSV = cmd[55:32]` (R61). -/
def cmdRsv (w : CmdWord) : BitVec 24 := w.extractLsb' 32 24

/-- `DATA = cmd[31:0]` (R61). -/
def cmdData (w : CmdWord) : Word := w.extractLsb' 0 32

/-- `DATA[31:24]` (R62: `s0`). -/
def byte3Of (d : Word) : Byte := d.extractLsb' 24 8
/-- `DATA[23:16]` (R62: `a`, `s1`). -/
def byte2Of (d : Word) : Byte := d.extractLsb' 16 8
/-- `DATA[15:8]` (R62: `b`, `s2`). -/
def byte1Of (d : Word) : Byte := d.extractLsb' 8 8
/-- `DATA[7:0]` (R62: `c`, `s3`, `SYM`, `REGNO`). -/
def byte0Of (d : Word) : Byte := d.extractLsb' 0 8
/-- `DATA[5:0]` (R62: `IDX`). -/
def indexOf (d : Word) : Index := d.extractLsb' 0 6

/-- The `OP` values of the table of R65. -/
def listedOps : List Byte := [0x10, 0x11, 0x12, 0x13, 0x20, 0x21, 0x30, 0x31, 0x40]

/-- The command of a listed `OP` with the operand field `d`, by the layouts of R62 and the opcodes of R65. -/
def decodeListed (op : Byte) (d : Word) : Except Reject Instr :=
  if op = 0x10 then .ok .enc0
  else if op = 0x11 then .ok (.enc1 (byte2Of d))
  else if op = 0x12 then .ok (.enc2 (byte2Of d) (byte1Of d))
  else if op = 0x13 then .ok (.enc3 (byte2Of d) (byte1Of d) (byte0Of d))
  else if op = 0x20 then .ok (.dstart d)
  else if op = 0x21 then .ok (.dgrp (byte3Of d) (byte2Of d) (byte1Of d) (byte0Of d))
  else if op = 0x30 then .ok (.lutf (indexOf d))
  else if op = 0x31 then .ok (.luti (byte0Of d))
  else if op = 0x40 then
    if regnoImplemented (byte0Of d) then .ok (.drd (byte0Of d)) else .error .reservedRegister
  else .error .reservedOpcode

/-- `decode(cmd)` of R66: first `OP`, then `RSV`, then `REGNO` (R107 items 1 to 3). -/
def decode (w : CmdWord) : Except Reject Instr :=
  if cmdOp w ∉ listedOps then .error .reservedOpcode
  else if cmdRsv w ≠ 0 then .error .reservedField
  else decodeListed (cmdOp w) (cmdData w)

/-- The opcode of a command (R65). -/
def opcodeOf : Instr → Byte
  | .enc0 => 0x10
  | .enc1 _ => 0x11
  | .enc2 _ _ => 0x12
  | .enc3 _ _ _ => 0x13
  | .dstart _ => 0x20
  | .dgrp _ _ _ _ => 0x21
  | .lutf _ => 0x30
  | .luti _ => 0x31
  | .drd _ => 0x40

/-- The `DATA` field the assembler writes, 0 in every ignored bit (R69). -/
def dataOf : Instr → Word
  | .enc0 => 0
  | .enc1 a => (0#8 ++ a ++ 0#16 : BitVec 32)
  | .enc2 a b => (0#8 ++ a ++ b ++ 0#8 : BitVec 32)
  | .enc3 a b c => (0#8 ++ a ++ b ++ c : BitVec 32)
  | .dstart len => len
  | .dgrp s0 s1 s2 s3 => (s0 ++ s1 ++ s2 ++ s3 : BitVec 32)
  | .lutf idx => (0#26 ++ idx : BitVec 32)
  | .luti sym => (0#24 ++ sym : BitVec 32)
  | .drd regno => (0#24 ++ regno : BitVec 32)

/-- The command word of a command: `OP ++ RSV ++ DATA` with `RSV = 0` (R61, R69). -/
def encode (i : Instr) : CmdWord := (opcodeOf i ++ 0#24 ++ dataOf i : BitVec 64)

/-- The `DATA` bits that are operands of a command: the complement of the ignored bits of R62. -/
def operandBits : Instr → Word
  | .enc0 => 0x00000000
  | .enc1 _ => 0x00FF0000
  | .enc2 _ _ => 0x00FFFF00
  | .enc3 _ _ _ => 0x00FFFFFF
  | .dstart _ => 0xFFFFFFFF
  | .dgrp _ _ _ _ => 0xFFFFFFFF
  | .lutf _ => 0x0000003F
  | .luti _ => 0x000000FF
  | .drd _ => 0x000000FF

/-- The command word whose bits are `w`, of which the opcode table gives the lowest `nbits`. -/
def tableCmdWord (nbits w : Nat) : CmdWord := BitVec.ofNat 64 (w % 2 ^ nbits)

/-- The command the decoder reads from the bits `w` of an opcode-table row. -/
def decodeTableWord (nbits w : Nat) : Option Instr := (decode (tableCmdWord nbits w)).toOption

end Sys2Proof
end

