-- ==== Sys2Proof/Machine/Operands.lean ====
section
/-! DEFINITION. Packing of bytes and symbols into words (20_memory.md R50) and the two bit shifters: `SPLIT`
(40_encoder.md R80) and `COLLAPSE` (41_decoder.md R89). -/

namespace Sys2Proof.Machine

/-- The 24-bit group `G = a ++ b ++ c`, first byte most significant (R50). -/
def byteGroup (a b c : Byte) : BitVec 24 := (a ++ b ++ c : BitVec 24)

/-- Four symbols as one word, first symbol in `[31:24]` (R50). -/
def symbolWord (s0 s1 s2 s3 : Byte) : Word := (s0 ++ s1 ++ s2 ++ s3 : BitVec 32)

/-- The 6-bit lane `k` of a group: `G[23 - 6k : 18 - 6k]` (R84). -/
def lane (g : BitVec 24) (k : Nat) : Index := g.extractLsb' (18 - 6 * k) 6

/-- `SPLIT(G) = (G[23:18], G[17:12], G[11:6], G[5:0])` (R80). -/
def split (g : BitVec 24) : Index × Index × Index × Index := (lane g 0, lane g 1, lane g 2, lane g 3)

/-- `COLLAPSE(v1, v2, v3, v4)`: `W = v1 ++ v2 ++ v3 ++ v4` cut into three bytes (R89). -/
def collapse (v1 v2 v3 v4 : Index) : Byte × Byte × Byte :=
  let w := (v1 ++ v2 ++ v3 ++ v4 : BitVec 24)
  (w.extractLsb' 16 8, w.extractLsb' 8 8, w.extractLsb' 0 8)

/-- `out = byte1 ++ (count >= 2 ? byte2 : 0x00) ++ (count == 3 ? byte3 : 0x00)`, zero-extended (R86): the byte lanes
beyond `COUNT` and `RDATA[31:24]` are 0. -/
def byteWord (count : BitVec 3) (bs : Byte × Byte × Byte) : Word :=
  (0#8 ++ bs.1 ++ (if 2 ≤ count.toNat then bs.2.1 else 0) ++ (if count = 3 then bs.2.2 else 0) : BitVec 32)

end Sys2Proof.Machine
end

