-- ==== Sys2Proof/Config.lean ====
section
/-! DEFINITION. The OPEN parameters of the block (00_scope.md R11) and the values the spec leaves free
(93_implementation_defined.md U1, U2, U7). None has a body: nothing can be proved about the value of one.
A function of a natural number is applied to `State.edgeCount`, the model's count of clock edges. -/

namespace Sys2Proof.Config

/-- `LATENCY - 1`: the edges between acceptance and the edge before the offer (R11, U4). Log entry 5. -/
opaque extraLatency : Nat

/-- `LATENCY`, at least 1 (R11, R125). -/
def latency : Nat := extraLatency + 1

/-- `CMD_DEPTH - 1` (R11, U5). Log entry 4. -/
opaque extraDepth : Nat

/-- `CMD_DEPTH`, at least 1 (R11, R125). -/
def cmdDepth : Nat := extraDepth + 1

/-- How many edges the block will hold `cmd_ready = 0` of its own choice: any natural number, so every stall
is finite (R60, U6, U7). Log entries 6 and 16. -/
opaque stallEdges : Nat → Nat

/-- `rsp_word` while `rsp_valid = 0` (R60, U1). Log entry 7. -/
opaque idleRspWord : Nat → RspWord

/-- `DSTATE` before the first reset (R116, U2). Log entry 8, as for the six below. -/
opaque powerOnDstate : Nat → BitVec 2
/-- `DREM` before the first reset. -/
opaque powerOnDrem : Nat → Word
/-- `DPOS` before the first reset. -/
opaque powerOnDpos : Nat → Word
/-- `DERR` before the first reset. -/
opaque powerOnDerr : Nat → BitVec 2
/-- `DERRPOS` before the first reset. -/
opaque powerOnDerrpos : Nat → Word
/-- `cmd_ready` before the first reset. -/
opaque powerOnCmdReady : Nat → Bool
/-- `rsp_valid` before the first reset. -/
opaque powerOnRspValid : Nat → Bool

end Sys2Proof.Config
end

