-- ==== Sys2Proof/Machine/State.lean ====
section
/-! DEFINITION. What the block holds (10_state.md), what the two channels hold between edges (30_encoding.md R60,
10_state.md R45), and what the host drives and has seen (70_reset_and_hazards.md R117, R127). INVENTORY.md,
'State', has one line per field. -/

namespace Sys2Proof.Machine

/-- `DSTATE`, 2 bits: all four codes are legal (R38). -/
inductive DState where
  /-- `IDLE = 0`: no stream since reset. -/
  | idle
  /-- `ACTIVE = 1`: a stream is started and a group of it is still expected. -/
  | active
  /-- `DONE = 2`: the last stream ended without error. -/
  | done
  /-- `ERROR = 3`: the last stream ended with the error in `DERR`. -/
  | error
deriving DecidableEq, Repr

/-- `DERR`, 2 bits: all four codes are legal (R41). -/
inductive DErr where
  /-- 0: none. -/
  | none
  /-- 1: `InvalidLength`. -/
  | invalidLength
  /-- 2: `UnexpectedCharacter`. -/
  | unexpectedCharacter
  /-- 3: `InvalidPadding`. -/
  | invalidPadding
deriving DecidableEq, Repr

/-- A response that the host has not yet taken (R45). -/
structure Pending where
  /-- the response word (R63) -/
  rsp : RspWord
  /-- edges that must pass before it may be offered (R11 `LATENCY`; log entry 5) -/
  wait : Nat
deriving DecidableEq, Repr

/-- The ports the host drives at one rising edge of `clk` (R60). -/
structure Edge where
  /-- `rst_n`: false is reset asserted -/
  rstN : Bool
  /-- `cmd_valid` -/
  cmdValid : Bool
  /-- `cmd_word` -/
  cmdWord : CmdWord
  /-- `rsp_ready` -/
  rspReady : Bool
deriving DecidableEq, Repr

/-- The whole state between two rising edges of `clk`. -/
structure State where
  /-- `DSTATE` (R38) -/
  dstate : DState
  /-- `DREM` (R39) -/
  drem : Word
  /-- `DPOS` (R40) -/
  dpos : Word
  /-- `DERR` (R41) -/
  derr : DErr
  /-- `DERRPOS` (R42) -/
  derrpos : Word
  /-- responses not yet taken, oldest first (R45) -/
  pending : List Pending
  /-- whether an edge with `rst_n = 0` has been seen since power-on (R116) -/
  sawReset : Bool
  /-- the word the host has offered and the block has not accepted (R60, R117) -/
  offer : Option CmdWord
  /-- what the host drives at the coming edges, the next edge first (R60; log entry 2) -/
  inputs : List Edge
  /-- the words accepted since reset, oldest first (R117; log entry 10) -/
  accepted : List CmdWord
  /-- the responses taken since reset, oldest first (R117, R127; log entry 10) -/
  taken : List RspWord
  /-- MODEL's own: further edges with `cmd_ready = 0` by the block's choice (U7; log entry 6) -/
  stall : Nat
  /-- MODEL's own: rising edges so far, the argument of the free values (log entry 6) -/
  edgeCount : Nat
deriving DecidableEq, Repr

/-- No fault exists: no error stops the block (R100, conflict C4), so this type has no constructor. -/
inductive Fault where
deriving DecidableEq, Repr

/-- Why a step has no meaning. No command of the block is refused: the two last reasons are the host's breach of
a duty on the ports, for which the spec says a model has no run. -/
inductive Refusal where
  /-- Raised by an arm of `exec` whose instruction has no meaning yet (none). Safe. -/
  | notModelled (mnemonic : String)
  /-- Raised by `step` when the host offers a command before the first reset (R116; U2 "refuses every command
  until reset"). Safe. -/
  | commandBeforeReset
  /-- Raised by `step` when the host drops or changes an offered command before it is accepted (R117; U3
  `refuse`: "a model has no move for it"). Safe for hosts that keep the duty. -/
  | hostBrokeOffer
deriving DecidableEq, Repr

/-- The state right after reset (R47, R115): the registers at the spec's values, nothing accepted, pending or
taken, and no input placed. `stall` and `edgeCount` are the model's own (DESIGN CHOICE, log entry 6). -/
def State.reset : State where
  dstate := .idle
  drem := 0
  dpos := 0
  derr := .none
  derrpos := 0
  pending := []
  sawReset := true
  offer := none
  inputs := []
  accepted := []
  taken := []
  stall := 0
  edgeCount := 0

end Sys2Proof.Machine
end

