-- ==== Sys2Proof/Machine/Flags.lean ====
section
/-! DEFINITION. The block has no flags (10_state.md R32): a command's outcome is in the `STATUS`, `COUNT` and `LAST`
fields of its response word. This file has those fields, their codes and the packing of the word (30_encoding.md
R63, R64), and the codes of `DSTATE` and `DERR` (10_state.md R38, R41, R43). -/

namespace Sys2Proof.Machine

/-- The values of `STATUS` (R64); 6..15 are never produced. -/
inductive Status where
  /-- 0 -/
  | ok
  /-- 1 -/
  | invalidLength
  /-- 2 -/
  | unexpectedCharacter
  /-- 3 -/
  | invalidPadding
  /-- 4 -/
  | noStream
  /-- 5 -/
  | illegalCommand
deriving DecidableEq, Repr

/-- The code of a status (R64). -/
def Status.code : Status → BitVec 4
  | .ok => 0
  | .invalidLength => 1
  | .unexpectedCharacter => 2
  | .invalidPadding => 3
  | .noStream => 4
  | .illegalCommand => 5

/-- The status that reports a decode error: codes 1 to 3 equal the `DERR` codes (R64). -/
def DErr.status : DErr → Status
  | .none => .ok
  | .invalidLength => .invalidLength
  | .unexpectedCharacter => .unexpectedCharacter
  | .invalidPadding => .invalidPadding

/-- The code of `DERR` (R41). -/
def DErr.code : DErr → BitVec 2
  | .none => 0
  | .invalidLength => 1
  | .unexpectedCharacter => 2
  | .invalidPadding => 3

/-- `DERR` from its code (R41). -/
def DErr.ofCode (c : BitVec 2) : DErr :=
  if c = 0 then .none else if c = 1 then .invalidLength
  else if c = 2 then .unexpectedCharacter else .invalidPadding

/-- The code of `DSTATE` (R38). -/
def DState.code : DState → BitVec 2
  | .idle => 0
  | .active => 1
  | .done => 2
  | .error => 3

/-- `DSTATE` from its code (R38). -/
def DState.ofCode (c : BitVec 2) : DState :=
  if c = 0 then .idle else if c = 1 then .active else if c = 2 then .done else .error

/-- `rsp = status[3:0] ++ count[2:0] ++ last[0] ++ data[31:0]` (R63). -/
def packRsp (status : Status) (count : BitVec 3) (last : Bool) (data : Word) : RspWord :=
  (status.code ++ count ++ BitVec.ofBool last ++ data : BitVec 40)

/-- `STATUS = rsp[39:36]` (R63). -/
def rspStatus (r : RspWord) : BitVec 4 := r.extractLsb' 36 4

/-- `COUNT = rsp[35:33]` (R63). -/
def rspCount (r : RspWord) : BitVec 3 := r.extractLsb' 33 3

/-- `LAST = rsp[32]` (R63). -/
def rspLast (r : RspWord) : Bool := r.getLsbD 32

/-- `RDATA = rsp[31:0]` (R63). -/
def rspData (r : RspWord) : Word := r.extractLsb' 0 32

end Sys2Proof.Machine
end

