-- ==== Sys2Proof/Machine/Ops.lean ====
section
/-! DEFINITION. The shared operations of the commands: answering (00_scope.md R15 `respond`), the three error actions
(60_exceptions.md R104 to R106) and reading a status register (42_status_lut.md R95). The block has no trap entry and no
return from one (R100, R109): these error actions are what it does instead. -/

namespace Sys2Proof.Machine

/-- The type of what a command or a step answers. -/
abbrev Result := Host.Outcome State Fault Refusal

/-- `respond(status, count, last, data)`: one response joins the queue; it may be offered `LATENCY` edges after
this one (R15, R63, R45, R125). -/
def respond (status : Status) (count : BitVec 3) (last : Bool) (data : Word) (s : State) : State :=
  { s with pending := s.pending ++ [⟨packRsp status count last data, Config.extraLatency⟩] }

/-- `raise DecodeError(code, pos)` (R104). -/
def raiseDecodeError (e : DErr) (pos : Word) (s : State) : State :=
  respond e.status 0 false pos { s with dstate := .error, derr := e, derrpos := pos }

/-- `raise NoStream` (R105): `respond(4, 0, 0, 0)` and no state change. -/
def raiseNoStream (s : State) : State := respond .noStream 0 false 0 s

/-- `raise IllegalCommand` (R106): `respond(5, 0, 0, 0)` and no state change. -/
def raiseIllegalCommand (s : State) : State := respond .illegalCommand 0 false 0 s

/-- `DSTAT = zext_32(DERR ++ DSTATE)`: bits [31:4] read 0 (R43). -/
def dstat (s : State) : Word := (0#28 ++ s.derr.code ++ s.dstate.code : BitVec 32)

/-- The status register of a number (R43, R95); none for 4..255. -/
def statusReg (regno : Byte) (s : State) : Option Word :=
  if regno = 0 then some (dstat s)
  else if regno = 1 then some s.derrpos
  else if regno = 2 then some s.dpos
  else if regno = 3 then some s.drem
  else none

end Sys2Proof.Machine
end

