-- ==== Sys2Proof/Machine/Tables.lean ====
section
/-! DEFINITION. The two constant tables, `ALPHA` (10_state.md R34) and `INV` (R35): definitions and not state,
since nothing writes them (R37). The octets are those the spec's tables list. -/

namespace Sys2Proof.Machine

/-- `A`..`Z`, indices 0..25 (R34). -/
def alphaUpper : List Byte :=
  [0x41, 0x42, 0x43, 0x44, 0x45, 0x46, 0x47, 0x48, 0x49, 0x4A, 0x4B, 0x4C, 0x4D,
   0x4E, 0x4F, 0x50, 0x51, 0x52, 0x53, 0x54, 0x55, 0x56, 0x57, 0x58, 0x59, 0x5A]

/-- `a`..`z`, indices 26..51 (R34). -/
def alphaLower : List Byte :=
  [0x61, 0x62, 0x63, 0x64, 0x65, 0x66, 0x67, 0x68, 0x69, 0x6A, 0x6B, 0x6C, 0x6D,
   0x6E, 0x6F, 0x70, 0x71, 0x72, 0x73, 0x74, 0x75, 0x76, 0x77, 0x78, 0x79, 0x7A]

/-- `0`..`9`, indices 52..61 (R34). -/
def alphaDigit : List Byte :=
  [0x30, 0x31, 0x32, 0x33, 0x34, 0x35, 0x36, 0x37, 0x38, 0x39]

/-- The 64 octets of the alphabet ROM, `+` and `/` last (R34). -/
def alphaTable : List Byte := alphaUpper ++ alphaLower ++ alphaDigit ++ [0x2B, 0x2F]

/-- `ALPHA(i)` (R34). -/
def alpha (i : Index) : Byte := alphaTable.getD i.toNat 0

/-- The octet of the padding symbol `=` (R35). -/
def padSymbol : Byte := 0x3D

/-- `cls`, the class of a symbol (R35); the code 3 is never stored. -/
inductive SymClass where
  /-- `DATA = 0`: one of the 64 alphabet symbols. -/
  | data
  /-- `PAD = 1`: the symbol `=`. -/
  | pad
  /-- `INVALID = 2`: every other octet. -/
  | invalid
deriving DecidableEq, Repr

/-- The 2-bit code of a class (R35). -/
def SymClass.code : SymClass → BitVec 2
  | .data => 0
  | .pad => 1
  | .invalid => 2

/-- `s - lo + first` as a 6-bit value: the `val` column of R35. -/
def rangeValue (s lo : Byte) (first : Index) : Index := (s - lo).truncate 6 + first

/-- `INV(s) = (cls, val)` (R35), row by row of its table. -/
def inv (s : Byte) : SymClass × Index :=
  if 0x41 ≤ s ∧ s ≤ 0x5A then (.data, rangeValue s 0x41 0)
  else if 0x61 ≤ s ∧ s ≤ 0x7A then (.data, rangeValue s 0x61 26)
  else if 0x30 ≤ s ∧ s ≤ 0x39 then (.data, rangeValue s 0x30 52)
  else if s = 0x2B then (.data, 62)
  else if s = 0x2F then (.data, 63)
  else if s = 0x3D then (.pad, 0)
  else (.invalid, 0)

/-- The ROM entry `cls[1:0] ++ val[5:0]` of a symbol (R35). -/
def invEntry (s : Byte) : Byte := ((inv s).1.code ++ (inv s).2 : BitVec 8)

end Sys2Proof.Machine
end

