-- ==== Sys2Proof/Machine/Padding.lean ====
section
/-! DEFINITION. The padding validator of `DGRP` (41_decoder.md R86 to R88, priority R91). -/

namespace Sys2Proof.Machine

/-- What the validator says of a group. -/
inductive Verdict where
  /-- check 1: `UnexpectedCharacter` at the position `j` of the group -/
  | unexpected (j : Nat)
  /-- check 2: `InvalidPadding` -/
  | badPadding
  /-- accepted, with `npad` trailing pads (0, 1 or 2) -/
  | accepted (npad : Nat)
deriving DecidableEq, Repr

/-- Check 1 at position `j`: `cls == INVALID`, or `cls == PAD and (not final or j < 2)` (R86, R103). -/
def unexpectedAt (final : Bool) (j : Nat) (cls : SymClass) : Bool :=
  cls == .invalid || (cls == .pad && (!final || decide (j < 2)))

/-- 1 for a pad and 0 otherwise: a term of `npad` (R86). -/
def padCount (cls : SymClass) : Nat := if cls = .pad then 1 else 0

/-- Checks 1 and 2 in the order of R91: the lowest `UnexpectedCharacter` position, then `InvalidPadding`. -/
def validate (final : Bool) (c0 c1 c2 c3 : SymClass) : Verdict :=
  if unexpectedAt final 0 c0 then .unexpected 0
  else if unexpectedAt final 1 c1 then .unexpected 1
  else if unexpectedAt final 2 c2 then .unexpected 2
  else if unexpectedAt final 3 c3 then .unexpected 3
  else if c2 = .pad ∧ c3 ≠ .pad then .badPadding
  else .accepted (padCount c2 + padCount c3)

end Sys2Proof.Machine
end

