-- ==== Sys2Proof/Machine/Decoder.lean ====
section
/-! DEFINITION. The decoder unit's commands (41_decoder.md R85, R86). -/

namespace Sys2Proof.Machine

/-- `DSTART` (R85). `InvalidLength` is exactly `LEN mod 4 != 0` (conflict C6). -/
def execDstart (len : Word) (s : State) : Result :=
  if len.toNat % 4 ≠ 0 then
    .next (raiseDecodeError .invalidLength 0 { s with dpos := 0, drem := 0 })
  else if len = 0 then
    .next (respond .ok 0 true 0
      { s with dpos := 0, drem := 0, derr := .none, derrpos := 0, dstate := .done })
  else
    .next (respond .ok 0 false 0
      { s with dpos := 0, drem := len >>> 2, derr := .none, derrpos := 0, dstate := .active })

/-- An accepted group with `npad` trailing pads (R86, R89, R90): the bits a padded group discards are not checked. -/
def acceptGroup (final : Bool) (npad : Nat) (v0 v1 v2 v3 : Index) (s : State) : State :=
  let count := BitVec.ofNat 3 (3 - npad)
  respond .ok count final (byteWord count (collapse v0 v1 v2 v3))
    { s with dpos := s.dpos + 4, drem := s.drem - 1, dstate := if final then .done else s.dstate }

/-- `DGRP` (R86). The group is final when `DREM = 1` (R39). -/
def execDgrp (s0 s1 s2 s3 : Byte) (s : State) : Result :=
  if s.dstate ≠ .active then .next (raiseNoStream s)
  else
    let final := decide (s.drem = 1)
    match validate final (inv s0).1 (inv s1).1 (inv s2).1 (inv s3).1 with
    | .unexpected j => .next (raiseDecodeError .unexpectedCharacter (s.dpos + BitVec.ofNat 32 j) s)
    | .badPadding => .next (raiseDecodeError .invalidPadding 0 s)
    | .accepted npad => .next (acceptGroup final npad (inv s0).2 (inv s1).2 (inv s2).2 (inv s3).2 s)

end Sys2Proof.Machine
end

