-- ==== Sys2Proof/Machine/Encoder.lean ====
section
/-! DEFINITION. The encoder unit (40_encoder.md R75 to R78): it reads its command word and `ALPHA` alone (R79). -/

namespace Sys2Proof.Machine

/-- Answer four symbols: `respond(0, 4, 0, ...)` (R75 to R77). -/
def respondSymbols (s0 s1 s2 s3 : Byte) (s : State) : State :=
  respond .ok 4 false (symbolWord s0 s1 s2 s3) s

/-- `ENC3` (R75). -/
def execEnc3 (a b c : Byte) (s : State) : Result :=
  match split (byteGroup a b c) with
  | (i1, i2, i3, i4) => .next (respondSymbols (alpha i1) (alpha i2) (alpha i3) (alpha i4) s)

/-- `ENC2` (R76): the missing byte is 0 and the fourth symbol is `=`. -/
def execEnc2 (a b : Byte) (s : State) : Result :=
  match split (byteGroup a b 0) with
  | (i1, i2, i3, _) => .next (respondSymbols (alpha i1) (alpha i2) (alpha i3) padSymbol s)

/-- `ENC1` (R77): the missing bytes are 0 and the third and fourth symbols are `=`. -/
def execEnc1 (a : Byte) (s : State) : Result :=
  match split (byteGroup a 0 0) with
  | (i1, i2, _, _) => .next (respondSymbols (alpha i1) (alpha i2) padSymbol padSymbol s)

/-- `ENC0` (R78): no symbol. -/
def execEnc0 (s : State) : Result := .next (respond .ok 0 false 0 s)

end Sys2Proof.Machine
end

