-- ==== Sys2Proof/Machine/Probe.lean ====
section
/-! DEFINITION. The status read and the table probes (42_status_lut.md R95 to R97): none changes a register. -/

namespace Sys2Proof.Machine

/-- `LUTF` (R96). -/
def execLutf (idx : Index) (s : State) : Result :=
  .next (respond .ok 0 false (0#24 ++ alpha idx : BitVec 32) s)

/-- `LUTI` (R97). -/
def execLuti (sym : Byte) (s : State) : Result :=
  .next (respond .ok 0 false (0#24 ++ invEntry sym : BitVec 32) s)

/-- `DRD` (R95). A number outside 0..3 never comes from the decoder (R66); it is `IllegalCommand` here too (R43, R56;
log entry 11). -/
def execDrd (regno : Byte) (s : State) : Result :=
  match statusReg regno s with
  | some v => .next (respond .ok 0 false v s)
  | none => .next (raiseIllegalCommand s)

end Sys2Proof.Machine
end

