-- ==== Sys2Proof/Machine/Dispatch.lean ====
section
/-! DEFINITION. One arm per command (30_encoding.md R65). -/

namespace Sys2Proof.Machine

/-- The effect of one accepted command, as one atomic step (92_eei_decisions.md D1). -/
def exec (i : Instr) (s : State) : Host.Outcome State Fault Refusal :=
  match i with
  | .enc3 a b c => Sys2Proof.Machine.execEnc3 a b c s
  | .enc2 a b => Sys2Proof.Machine.execEnc2 a b s
  | .enc1 a => Sys2Proof.Machine.execEnc1 a s
  | .enc0 => Sys2Proof.Machine.execEnc0 s
  | .dstart len => Sys2Proof.Machine.execDstart len s
  | .dgrp s0 s1 s2 s3 => Sys2Proof.Machine.execDgrp s0 s1 s2 s3 s
  | .lutf idx => Sys2Proof.Machine.execLutf idx s
  | .luti sym => Sys2Proof.Machine.execLuti sym s
  | .drd regno => Sys2Proof.Machine.execDrd regno s

end Sys2Proof.Machine
end

