-- ==== Sys2Proof/Machine/Issue.lean ====
section
/-! DEFINITION. One accepted command word: decoded, then executed, or answered `IllegalCommand` (30_encoding.md R66). -/

namespace Sys2Proof.Machine

/-- The effect of accepting the word `w` (R66): every word has one. -/
def runWord (w : CmdWord) (s : State) : Result :=
  match decode w with
  | .ok i => exec i s
  | .error _ => .next (raiseIllegalCommand s)

/-- The effect of accepting words one after another, in this order (20_memory.md R52). -/
def runWords : List CmdWord → State → Result
  | [], s => .next s
  | w :: ws, s =>
    match runWord w s with
    | .next t => runWords ws t
    | .fault f => .fault f
    | .refused r => .refused r

end Sys2Proof.Machine
end

