-- ==== Sys2Proof/Machine/Channel.lean ====
section
/-! DEFINITION. The ports at one rising edge of `clk` (30_encoding.md R60), reset (70_reset_and_hazards.md R115), the
time before the first reset (R116), and the two handshakes (R60, R117, R125). -/

namespace Sys2Proof.Machine

/-- What the host drives at the next edge. When no input is placed the host keeps an offered command and takes
responses, as its duties are (R117); DESIGN CHOICE, log entry 2. -/
def drivenEdge (s : State) : Edge :=
  match s.inputs with
  | e :: _ => e
  | [] => ⟨true, s.offer.isSome, s.offer.getD 0, true⟩

/-- Fewer than `n + 1` responses wait. -/
def hasRoom : List Pending → Nat → Bool
  | [], _ => true
  | _ :: _, 0 => false
  | _ :: ps, n + 1 => hasRoom ps n

/-- The oldest response may be offered. -/
def headOffered : List Pending → Bool
  | [] => false
  | p :: _ => p.wait == 0

/-- `cmd_ready` (R60): 0 during reset (R115), while the block stalls of its own choice (U7), and whenever `CMD_DEPTH`
responses have not been taken; unspecified before the first reset (R116). -/
def cmdReady (s : State) (rstN : Bool) : Bool :=
  if s.sawReset then rstN && s.stall == 0 && hasRoom s.pending Config.extraDepth
  else Config.powerOnCmdReady s.edgeCount

/-- `rsp_valid` (R60): 0 during reset (R115); unspecified before the first reset (R116). -/
def rspValid (s : State) (rstN : Bool) : Bool :=
  if s.sawReset then rstN && headOffered s.pending
  else Config.powerOnRspValid s.edgeCount

/-- `rsp_word` (R60): the oldest response while `rsp_valid = 1`, else a free value (U1; log entry 7). -/
def rspWord (s : State) (rstN : Bool) : RspWord :=
  match s.pending with
  | p :: _ => if rspValid s rstN then p.rsp else Config.idleRspWord s.edgeCount
  | [] => Config.idleRspWord s.edgeCount

/-- One edge nearer to being offered. -/
def Pending.age (p : Pending) : Pending := { p with wait := p.wait - 1 }

/-- What every edge with `rst_n = 1` does to the block beside the handshakes: the input is used up, the waits and the
block's own stall run down, and a stall that has run out is drawn again (U7; log entry 6). -/
def clockEdge (s : State) : State :=
  { s with
    inputs := s.inputs.tail
    edgeCount := s.edgeCount + 1
    stall := if s.stall = 0 then Config.stallEdges s.edgeCount else s.stall - 1
    pending := s.pending.map Pending.age }

/-- The host takes the oldest response (R60). -/
def takeResponse (s : State) : State :=
  match s.pending with
  | p :: ps => { s with pending := ps, taken := s.taken ++ [p.rsp] }
  | [] => s

/-- The response channel at an edge: a response is taken when `rsp_valid` and `rsp_ready` are 1 (R60). -/
def responseEdge (e : Edge) (s : State) : State :=
  if rspValid s e.rstN && e.rspReady then takeResponse (clockEdge s) else clockEdge s

/-- An edge with `rst_n = 0` (R115, R47): the reset state; the inputs still to come stay, and the stall after reset is
free (U7). -/
def resetEdge (s : State) : State :=
  { State.reset with
    inputs := s.inputs.tail
    edgeCount := s.edgeCount + 1
    stall := Config.stallEdges s.edgeCount }

/-- The five registers at the free values they have before the first reset (R116, U2). -/
def unspecifyRegisters (s : State) : State :=
  { s with
    dstate := DState.ofCode (Config.powerOnDstate s.edgeCount)
    drem := Config.powerOnDrem s.edgeCount
    dpos := Config.powerOnDpos s.edgeCount
    derr := DErr.ofCode (Config.powerOnDerr s.edgeCount)
    derrpos := Config.powerOnDerrpos s.edgeCount }

/-- The state at power-on, before the first reset (R116; log entry 8). -/
def State.powerOn : State := unspecifyRegisters { State.reset with sawReset := false }

/-- An edge before the first reset at which no command is offered: the registers stay unspecified. -/
def unresetEdge (s : State) : State :=
  unspecifyRegisters { s with inputs := s.inputs.tail, edgeCount := s.edgeCount + 1 }

/-- The host drops or changes a command it has offered (R117, first duty). -/
def breaksOffer (s : State) (e : Edge) : Bool :=
  match s.offer with
  | none => false
  | some w => !(e.cmdValid && e.cmdWord == w)

/-- A command is accepted at an edge (R60). -/
def accepts (s : State) (e : Edge) : Bool := e.rstN && e.cmdValid && cmdReady s e.rstN

/-- The state the accepted word `e.cmdWord` is executed in: the response channel's part of the edge is done and the
word is recorded. -/
def acceptEdge (e : Edge) (s : State) : State :=
  let t := responseEdge e s
  { t with offer := none, accepted := t.accepted ++ [e.cmdWord] }

/-- An edge at which no command is accepted: an offered one stays offered. -/
def waitEdge (e : Edge) (s : State) : State :=
  { responseEdge e s with offer := if e.cmdValid then some e.cmdWord else none }

/-- One rising edge of `clk` with the ports driven as `e`. -/
def atEdge (e : Edge) (s : State) : Result :=
  if !e.rstN then .next (resetEdge s)
  else if !s.sawReset then
    if e.cmdValid then .refused .commandBeforeReset else .next (unresetEdge s)
  else if breaksOffer s e then .refused .hostBrokeOffer
  else if accepts s e then runWord e.cmdWord (acceptEdge e s)
  else .next (waitEdge e s)

/-- The edge at which the host offers `w` and takes no response. -/
def offering (w : CmdWord) : Edge := ⟨true, true, w, false⟩

/-- Place `w` so that the very next edge accepts it: the host offers it next, the block does not stall, and if the
queue is full the host has taken what waited (log entry 3). -/
def placeCommand (w : CmdWord) (s : State) : State :=
  let t := if hasRoom s.pending Config.extraDepth then s
    else { s with pending := [], taken := s.taken ++ s.pending.map Pending.rsp }
  { t with sawReset := true, stall := 0, offer := none, inputs := offering w :: s.inputs }

end Sys2Proof.Machine
end

