-- ==== Sys2Proof/Machine/Step.lean ====
section
/-! DEFINITION. One step: one rising edge of `clk` (log entry 1), with the ports the host drives next. -/

namespace Sys2Proof.Machine

/-- One rising edge of `clk` (30_encoding.md R60). -/
def step (s : State) : Host.Outcome State Fault Refusal := atEdge (drivenEdge s) s

/-- `s` with the command word whose bits are `w` offered at the next edge and the block ready for it. -/
def State.withFetchWord (s : State) (nbits w : Nat) : State := placeCommand (tableCmdWord nbits w) s

end Sys2Proof.Machine
end

