-- ==== Sys2Proof/Machine/Assembly.lean ====
section
/-! DEFINITION. The assembler syntax of `B64CORE-v1` (30_encoding.md R69): text forms of command words, as lists of
characters. The block never sees them; a host's tools do. What R69 leaves open (radix of a printed number, spelling of
a number read, white space): log entry 15. -/

namespace Sys2Proof.Machine

/-- One operand as written. -/
inductive AsmOperand where
  /-- a number or a register name -/
  | text (cs : List Char)
  /-- a character literal `'c'` -/
  | chr (c : Char)
  /-- a quoted group of exactly four characters -/
  | quoted (c0 c1 c2 c3 : Char)
deriving DecidableEq, Repr

/-- A printable ASCII character, which an octet of its code stands for (R69). That these are the codes 0x20 to 0x7E is
PRESUMED, log entry 15. -/
def printable (c : Char) : Bool := 0x20 ≤ c.toNat && c.toNat ≤ 0x7E

/-- Upper case of an ASCII letter: mnemonics are case-insensitive (R69). -/
def upperChar (c : Char) : Char :=
  if 0x61 ≤ c.toNat && c.toNat ≤ 0x7A then Char.ofNat (c.toNat - 32) else c

/-- The value of a hexadecimal digit of either case. -/
def digitValue (c : Char) : Option Nat :=
  if 0x30 ≤ c.toNat && c.toNat ≤ 0x39 then some (c.toNat - 0x30)
  else if 0x41 ≤ c.toNat && c.toNat ≤ 0x46 then some (c.toNat - 0x37)
  else if 0x61 ≤ c.toNat && c.toNat ≤ 0x66 then some (c.toNat - 0x57)
  else none

/-- The digits of a number in base `b`, most significant first, added to `acc`. -/
def readDigits (b : Nat) : List Char → Nat → Option Nat
  | [], acc => some acc
  | c :: cs, acc =>
    match digitValue c with
    | some d => if d < b then readDigits b cs (acc * b + d) else none
    | none => none

/-- A decimal number, or a hexadecimal one after `0x` (R69). DESIGN CHOICE, log entry 15: any number of digits of
either case after `0x`, leading zeros in both radices, and the same spellings for the operands of `LUTF` and `DRD`, whose
radix R69 does not give. -/
def readNumber : List Char → Option Nat
  | '0' :: 'x' :: d :: ds => readDigits 16 (d :: ds) 0
  | d :: ds => readDigits 10 (d :: ds) 0
  | [] => none

/-- A byte operand: a number 0..255 or a character literal (R69). -/
def readByte : AsmOperand → Option Byte
  | .text cs => (readNumber cs).bind fun n => if n < 256 then some (BitVec.ofNat 8 n) else none
  | .chr c => if printable c then some (BitVec.ofNat 8 c.toNat) else none
  | .quoted _ _ _ _ => none

/-- A number operand below `bound`. -/
def readBelow (bound : Nat) : AsmOperand → Option Nat
  | .text cs => (readNumber cs).bind fun n => if n < bound then some n else none
  | .chr _ => none
  | .quoted _ _ _ _ => none

/-- The names of the status registers (R43, R69). -/
def registerNames : List (List Char × Byte) :=
  [(['D', 'S', 'T', 'A', 'T'], 0), (['D', 'E', 'R', 'R', 'P', 'O', 'S'], 1),
   (['D', 'P', 'O', 'S'], 2), (['D', 'R', 'E', 'M'], 3)]

/-- A register operand of `DRD`: 0..3 or a name (R69), the name in either case (DESIGN CHOICE, log entry 15). -/
def readRegister : AsmOperand → Option Byte
  | .text cs =>
    match registerNames.lookup (cs.map upperChar) with
    | some r => some r
    | none => (readBelow 4 (.text cs)).map (BitVec.ofNat 8)
  | .chr _ => none
  | .quoted _ _ _ _ => none

/-- A character of a number or a name: neither a space nor a comma. -/
def wordChar (c : Char) : Bool := c != ' ' && c != ','

/-- Skip spaces. -/
def skipSpaces (cs : List Char) : List Char := cs.dropWhile (· == ' ')

/-- The operand at the head of the text, and the text after it. DESIGN CHOICE, log entry 15: a literal or a group is
read by its length, so that `'`, `"`, `\` and a comma may stand in it. -/
def readOperand : List Char → Option (AsmOperand × List Char)
  | '\'' :: c :: '\'' :: cs => some (.chr c, cs)
  | '"' :: c0 :: c1 :: c2 :: c3 :: '"' :: cs =>
    if [c0, c1, c2, c3].all printable then some (.quoted c0 c1 c2 c3, cs) else none
  | cs =>
    if (cs.takeWhile wordChar).isEmpty then none
    else some (.text (cs.takeWhile wordChar), cs.dropWhile wordChar)

/-- At most `n` operands separated by commas. -/
def readOperands : Nat → List Char → Option (List AsmOperand)
  | 0, _ => none
  | n + 1, cs =>
    match readOperand (skipSpaces cs) with
    | some (o, rest) =>
      match skipSpaces rest with
      | [] => some [o]
      | ',' :: rest' => (readOperands n rest').map (o :: ·)
      | _ => none
    | none => none

/-- The mnemonics as characters (R65). -/
def mnemonicOf : Instr → List Char
  | .enc3 _ _ _ => ['E', 'N', 'C', '3']
  | .enc2 _ _ => ['E', 'N', 'C', '2']
  | .enc1 _ => ['E', 'N', 'C', '1']
  | .enc0 => ['E', 'N', 'C', '0']
  | .dstart _ => ['D', 'S', 'T', 'A', 'R', 'T']
  | .dgrp _ _ _ _ => ['D', 'G', 'R', 'P']
  | .lutf _ => ['L', 'U', 'T', 'F']
  | .luti _ => ['L', 'U', 'T', 'I']
  | .drd _ => ['D', 'R', 'D']

/-- `.word64`, in capitals as the reader compares it. -/
def word64Name : List Char := ['.', 'W', 'O', 'R', 'D', '6', '4']

/-- Four bytes, each read by `readByte`. -/
def readBytes4 (o0 o1 o2 o3 : AsmOperand) : Option Instr :=
  match readByte o0, readByte o1, readByte o2, readByte o3 with
  | some b0, some b1, some b2, some b3 => some (.dgrp b0 b1 b2 b3)
  | _, _, _, _ => none

/-- The command of a mnemonic and its operands (the table of R69). -/
def assembleInstr (m : List Char) (os : List AsmOperand) : Option Instr :=
  match os with
  | [] => if m = ['E', 'N', 'C', '0'] then some .enc0 else none
  | [.quoted c0 c1 c2 c3] =>
    if m = ['D', 'G', 'R', 'P'] then readBytes4 (.chr c0) (.chr c1) (.chr c2) (.chr c3) else none
  | [o] =>
    if m = ['E', 'N', 'C', '1'] then (readByte o).map .enc1
    else if m = ['D', 'S', 'T', 'A', 'R', 'T'] then (readBelow (2 ^ 32) o).map fun n => .dstart (BitVec.ofNat 32 n)
    else if m = ['L', 'U', 'T', 'F'] then (readBelow 64 o).map fun n => .lutf (BitVec.ofNat 6 n)
    else if m = ['L', 'U', 'T', 'I'] then (readByte o).map .luti
    else if m = ['D', 'R', 'D'] then (readRegister o).map .drd
    else none
  | [o0, o1] =>
    if m = ['E', 'N', 'C', '2'] then
      match readByte o0, readByte o1 with
      | some a, some b => some (.enc2 a b)
      | _, _ => none
    else none
  | [o0, o1, o2] =>
    if m = ['E', 'N', 'C', '3'] then
      match readByte o0, readByte o1, readByte o2 with
      | some a, some b, some c => some (.enc3 a b c)
      | _, _, _ => none
    else none
  | [o0, o1, o2, o3] => if m = ['D', 'G', 'R', 'P'] then readBytes4 o0 o1 o2 o3 else none
  | _ => none

/-- `.word64 0x<16 hex digits>`: the word as written (R69). -/
def assembleRaw : List AsmOperand → Option CmdWord
  | [.text ('0' :: 'x' :: ds)] => if ds.length = 16 then (readDigits 16 ds 0).map (BitVec.ofNat 64) else none
  | _ => none

/-- The command word a line of assembly stands for (R69). -/
def assemble (line : List Char) : Option CmdWord :=
  let cs := skipSpaces line
  let m := (cs.takeWhile wordChar).map upperChar
  let rest := skipSpaces (cs.dropWhile wordChar)
  match (if rest = [] then some [] else readOperands 4 rest) with
  | some os => if m = word64Name then assembleRaw os else (assembleInstr m os).map encode
  | none => none

/-- A hexadecimal digit, in capitals. -/
def hexDigit (n : Nat) : Char := if n < 10 then Char.ofNat (0x30 + n) else Char.ofNat (0x37 + n)

/-- The lowest `k` hexadecimal digits of a number, most significant first. -/
def hexDigits : Nat → Nat → List Char
  | 0, _ => []
  | k + 1, n => hexDigits k (n / 16) ++ [hexDigit (n % 16)]

/-- A number printed as `0x` and `k` digits. -/
def hexLiteral (k n : Nat) : List Char := '0' :: 'x' :: hexDigits k n

/-- An octet that may stand in a printed quoted group: printable ASCII other than `"` and `\` (R69). -/
def quotable (b : Byte) : Bool := 0x20 ≤ b.toNat && b.toNat ≤ 0x7E && b != 0x22 && b != 0x5C

/-- Operands printed with a comma and a space between them. -/
def joinOperands : List (List Char) → List Char
  | [] => []
  | [o] => o
  | o :: os => o ++ [',', ' '] ++ joinOperands os

/-- A byte printed in hexadecimal. -/
def printByte (b : Byte) : List Char := hexLiteral 2 b.toNat

/-- The printed operands of a command (R69). -/
def printOperands : Instr → List (List Char)
  | .enc3 a b c => [printByte a, printByte b, printByte c]
  | .enc2 a b => [printByte a, printByte b]
  | .enc1 a => [printByte a]
  | .enc0 => []
  | .dstart len => [hexLiteral 8 len.toNat]
  | .dgrp s0 s1 s2 s3 =>
    if [s0, s1, s2, s3].all quotable then
      [['"', Char.ofNat s0.toNat, Char.ofNat s1.toNat, Char.ofNat s2.toNat, Char.ofNat s3.toNat, '"']]
    else [printByte s0, printByte s1, printByte s2, printByte s3]
  | .lutf idx => [hexLiteral 2 idx.toNat]
  | .luti sym => [printByte sym]
  | .drd regno =>
    match registerNames.find? (fun p => p.2 == regno) with
    | some p => [p.1]
    | none => [printByte regno]

/-- A command printed as assembly. -/
def printInstr (i : Instr) : List Char :=
  match printOperands i with
  | [] => mnemonicOf i
  | os => mnemonicOf i ++ [' '] ++ joinOperands os

/-- The disassembler of R69: every word that R66 rejects is printed as `.word64`. -/
def disassemble (w : CmdWord) : List Char :=
  match decode w with
  | .ok i => printInstr i
  | .error _ => ['.', 'w', 'o', 'r', 'd', '6', '4', ' '] ++ hexLiteral 16 w.toNat

end Sys2Proof.Machine
end

