-- ==== Sys2Proof/Machine/HostDriver.lean ====
section
/-! DEFINITION. The host's two command sequences (70_reset_and_hazards.md R119, R120), which realise the document's
`encode(buffer)` and `decode(text)` (00_scope.md R5). The host issues one word, reads its response, and goes on; it
is the block's agent, not a part of the block (log entry 17). -/

namespace Sys2Proof.Machine

/-- Issue the word of `i` and read its response: the newest of the queue (20_memory.md R52: one response per
command, in order). -/
def ask (i : Instr) (s : State) : Option (RspWord × State) :=
  match runWord (encode i) s with
  | .next t => t.pending.getLast?.map fun p => (p.rsp, t)
  | .fault _ => none
  | .refused _ => none

/-- The four symbols of an encoder response, first symbol first (R50, R119). -/
def symbolsOf (r : RspWord) : List Byte :=
  [byte3Of (rspData r), byte2Of (rspData r), byte1Of (rspData r), byte0Of (rspData r)]

/-- The first `COUNT` bytes of a decoder response (R50, R120). -/
def bytesOf (r : RspWord) : List Byte :=
  [byte2Of (rspData r), byte1Of (rspData r), byte0Of (rspData r)].take (rspCount r).toNat

/-- `encode(buffer)` (R119): the text and the state after the last response. Nothing is issued for a remainder of no
bytes. -/
def hostEncode : List Byte → State → Option (List Byte × State)
  | a :: b :: c :: rest, s =>
    match ask (.enc3 a b c) s with
    | some (r, t) => (hostEncode rest t).map fun q => (symbolsOf r ++ q.1, q.2)
    | none => none
  | [a, b], s => (ask (.enc2 a b) s).map fun q => (symbolsOf q.1, q.2)
  | [a], s => (ask (.enc1 a) s).map fun q => (symbolsOf q.1, q.2)
  | [], s => some ([], s)

/-- The result of `decode(text)` (R120, R92): a buffer or an error, never both (R121). -/
inductive DecodeResult where
  /-- the whole text decoded -/
  | bytes (buffer : List Byte)
  /-- `InvalidLength` -/
  | invalidLength
  /-- `UnexpectedCharacter(position)` -/
  | unexpectedCharacter (position : Word)
  /-- `InvalidPadding` -/
  | invalidPadding
  /-- the text has `2^32` octets or more: no command can start its decode (R12) -/
  | notExpressible
deriving DecidableEq, Repr

/-- The loop of R120 over the groups; `acc` holds the bytes appended so far, dropped on an error (R121). -/
def hostDecodeGroups : List Byte → List Byte → State → Option (DecodeResult × State)
  | s0 :: s1 :: s2 :: s3 :: rest, acc, s =>
    match ask (.dgrp s0 s1 s2 s3) s with
    | some (r, t) =>
      if rspStatus r = 2 then some (.unexpectedCharacter (rspData r), t)
      else if rspStatus r = 3 then some (.invalidPadding, t)
      else hostDecodeGroups rest (acc ++ bytesOf r) t
    | none => none
  | _, acc, s => some (.bytes acc, s)

/-- `decode(text)` (R120). -/
def hostDecode (text : List Byte) (s : State) : Option (DecodeResult × State) :=
  if text.length < 2 ^ 32 then
    match ask (.dstart (BitVec.ofNat 32 text.length)) s with
    | some (r, t) =>
      if rspStatus r = 1 then some (.invalidLength, t)
      else if rspLast r then some (.bytes [], t)
      else hostDecodeGroups text [] t
    | none => none
  else some (.notExpressible, s)

end Sys2Proof.Machine
end

