-- ==== Sys2Proof/Safety.lean ====
section
/-! DEFINITION. The terms the claims use: what two states share, the legal values of the decoder registers
(10_state.md R43, R44), the bound on waiting responses (R45), the order of answers (20_memory.md R52), and a run that
goes on. -/

namespace Sys2Proof.Machine

/-- The five decoder registers of 10_state.md section 3 agree. -/
structure SameRegisters (s t : State) : Prop where
  dstate : s.dstate = t.dstate
  drem : s.drem = t.drem
  dpos : s.dpos = t.dpos
  derr : s.derr = t.derr
  derrpos : s.derrpos = t.derrpos

/-- Everything but the decoder registers and the queue of responses agrees. -/
structure SamePorts (s t : State) : Prop where
  sawReset : s.sawReset = t.sawReset
  offer : s.offer = t.offer
  inputs : s.inputs = t.inputs
  accepted : s.accepted = t.accepted
  taken : s.taken = t.taken
  stall : s.stall = t.stall
  edgeCount : s.edgeCount = t.edgeCount

/-- `s` with one more response waiting, the word `r`; it may be offered `LATENCY` edges later (R45, R125). -/
def answering (s : State) (r : RspWord) : State :=
  { s with pending := s.pending ++ [⟨r, Config.extraLatency⟩] }

/-- The commands that may write a decoder register (R38, R43). -/
def writesRegisters : Instr → Bool
  | .dstart _ => true
  | .dgrp _ _ _ _ => true
  | .enc3 _ _ _ => false
  | .enc2 _ _ => false
  | .enc1 _ => false
  | .enc0 => false
  | .lutf _ => false
  | .luti _ => false
  | .drd _ => false

/-- The length a word gives a stream, when it is a `DSTART`. -/
def dstartLen (w : CmdWord) : Option Word :=
  match decode w with
  | .ok (.dstart len) => some len
  | _ => none

/-- The length given to the stream's `DSTART` (R44): that of the last one accepted. -/
def streamLen (ws : List CmdWord) : Option Word :=
  ws.foldl (fun acc w => (dstartLen w).or acc) none

/-- `DPOS + 4 * DREM` is the length given to the stream's `DSTART`, and `DPOS` is the position of the first symbol
of a group of that text (R44). -/
def AtGroup (s : State) : Prop :=
  1 ≤ s.drem.toNat ∧ s.dpos.toNat % 4 = 0 ∧
    ∃ len, streamLen s.accepted = some len ∧ s.dpos.toNat + 4 * s.drem.toNat = len.toNat

/-- The invariants of R44, and that a recorded position is that of a symbol of the failed group (R42, R103). -/
structure DecoderInv (s : State) : Prop where
  idle : s.dstate = .idle → s.drem = 0 ∧ s.dpos = 0 ∧ s.derr = .none ∧ s.derrpos = 0
  active : s.dstate = .active → AtGroup s ∧ s.derr = .none ∧ s.derrpos = 0
  done : s.dstate = .done →
    s.drem = 0 ∧ s.derr = .none ∧ s.derrpos = 0 ∧ streamLen s.accepted = some s.dpos ∧ s.dpos.toNat % 4 = 0
  error : s.dstate = .error → s.derr ≠ .none
  noError : s.dstate ≠ .error → s.derr = .none
  position : s.derrpos ≠ 0 → s.derr = .unexpectedCharacter
  badLength : s.derr = .invalidLength → s.drem = 0 ∧ s.dpos = 0
  badGroup : s.derr = .unexpectedCharacter ∨ s.derr = .invalidPadding → AtGroup s
  offending : s.derr = .unexpectedCharacter →
    s.dpos.toNat ≤ s.derrpos.toNat ∧ s.derrpos.toNat < s.dpos.toNat + 4

/-- The ranges of the table of R43 (and R39: `DREM` never exceeds `2^30 - 1`). -/
def LegalRegisters (s : State) : Prop :=
  s.derrpos.toNat ≤ 2 ^ 32 - 5 ∧ s.dpos.toNat % 4 = 0 ∧ s.dpos.toNat ≤ 2 ^ 32 - 4 ∧ s.drem.toNat ≤ 2 ^ 30 - 1

/-- At most `CMD_DEPTH` accepted commands have responses not yet taken (R45, R60). -/
def DepthInv (s : State) : Prop := s.pending.length ≤ Config.cmdDepth

/-- The responses taken and those still waiting are, in this order, the answers to the accepted words executed one
at a time from reset, and the registers are what those words leave (R52, R117). -/
def AnswerInv (s : State) : Prop :=
  ∃ r, runWords s.accepted State.reset = .next r ∧ SameRegisters r s ∧
    r.pending.map Pending.rsp = s.taken ++ s.pending.map Pending.rsp

/-- What holds at reset and after every step that follows a reset. Before the first reset nothing is known (R116). -/
def BlockInv (s : State) : Prop := s.sawReset = true → DecoderInv s ∧ DepthInv s ∧ AnswerInv s

/-- `k` steps from `s` end in `t`: no step of them was refused. -/
def Reaches (k : Nat) (s t : State) : Prop := Host.Core.run core k s = .next t

end Sys2Proof.Machine
end

