-- ==== Sys2Proof/Certificates/Slice0/Obligations.lean ====
section
/-! DEFINITION. The statements for the provers. The block has no memory (10_state.md R46), so a frame speaks of the
decoder registers, the queue of responses and the ports. An equation `exec i s = .next (answering s r)` is a whole
frame: it says that nothing but the queue of responses changed. -/

open Sys2Proof Sys2Proof.Machine

/-! ## The tables -/

/-- The closed form that 10_state.md section 2 derives from the table of `ALPHA`. -/
def Obligations.AlphabetTableContents : Prop :=
  ∀ i : Index,
    (i.toNat ≤ 25 → (alpha i).toNat = 0x41 + i.toNat) ∧
    (26 ≤ i.toNat ∧ i.toNat ≤ 51 → (alpha i).toNat = 0x61 + (i.toNat - 26)) ∧
    (52 ≤ i.toNat ∧ i.toNat ≤ 61 → (alpha i).toNat = 0x30 + (i.toNat - 52)) ∧
    (i.toNat = 62 → alpha i = 0x2B) ∧
    (i.toNat = 63 → alpha i = 0x2F)

/-- R35, row by row of its table: class, value and entry octet of every symbol, and how many symbols each class has. -/
def Obligations.InverseTableContents : Prop :=
  (let count := fun c : SymClass => ((List.range 256).filter fun n => (inv (BitVec.ofNat 8 n)).1 == c).length;
    count .data = 64 ∧ count .pad = 1 ∧ count .invalid = 191) ∧
  ∀ s : Byte,
    (0x41 ≤ s.toNat ∧ s.toNat ≤ 0x5A →
      inv s = (.data, BitVec.ofNat 6 (s.toNat - 0x41)) ∧ (invEntry s).toNat = s.toNat - 0x41) ∧
    (0x61 ≤ s.toNat ∧ s.toNat ≤ 0x7A →
      inv s = (.data, BitVec.ofNat 6 (s.toNat - 0x61 + 26)) ∧ (invEntry s).toNat = s.toNat - 0x61 + 26) ∧
    (0x30 ≤ s.toNat ∧ s.toNat ≤ 0x39 →
      inv s = (.data, BitVec.ofNat 6 (s.toNat - 0x30 + 52)) ∧ (invEntry s).toNat = s.toNat - 0x30 + 52) ∧
    (s = 0x2B → inv s = (.data, 62) ∧ invEntry s = 0x3E) ∧
    (s = 0x2F → inv s = (.data, 63) ∧ invEntry s = 0x3F) ∧
    (s = 0x3D → inv s = (.pad, 0) ∧ invEntry s = 0x40) ∧
    (s.toNat ≤ 0x2A ∨ 0x2C ≤ s.toNat ∧ s.toNat ≤ 0x2E ∨ 0x3A ≤ s.toNat ∧ s.toNat ≤ 0x3C ∨
        0x3E ≤ s.toNat ∧ s.toNat ≤ 0x40 ∨ 0x5B ≤ s.toNat ∧ s.toNat ≤ 0x60 ∨ 0x7B ≤ s.toNat →
      inv s = (.invalid, 0) ∧ invEntry s = 0x80)

/-- R36. -/
def Obligations.TablesAreMutuallyInverse : Prop :=
  (∀ i : Index, inv (alpha i) = (.data, i)) ∧
  (∀ (s : Byte) (v : Index), inv s = (.data, v) → alpha v = s)

/-! ## Words of the interface -/

/-- R66, over the word read as a number: the three causes of `IllegalCommand`, and otherwise the rule of `OP`. -/
def Obligations.RunWordFollowsDecode : Prop :=
  ∀ (w : CmdWord) (s : State),
    let op := w.toNat / 2 ^ 56
    let illegal := op ∉ [0x10, 0x11, 0x12, 0x13, 0x20, 0x21, 0x30, 0x31, 0x40] ∨
      w.toNat / 2 ^ 32 % 2 ^ 24 ≠ 0 ∨ (op = 0x40 ∧ w.toNat % 2 ^ 8 > 3)
    (illegal → runWord w s = .next (answering s 0x5000000000)) ∧
    (¬ illegal → ∃ i, decode w = .ok i ∧ i.wf = true ∧ (opcodeOf i).toNat = op ∧ runWord w s = exec i s)

/-- Every bit of an encoding is kept: decoding the word of a well-formed command gives the command back. -/
def Obligations.DecodeUndoesEncode : Prop :=
  ∀ i : Instr, i.wf = true → decode (encode i) = .ok i

/-- The other direction: a word the decoder reads is the command's own word but for the ignored bits, which the
assembler writes as 0. -/
def Obligations.EncodeUndoesDecode : Prop :=
  ∀ (w : CmdWord) (i : Instr), decode w = .ok i →
    i.wf = true ∧ encode i = w &&& (0xFFFFFFFF#32 ++ operandBits i : BitVec 64)

/-- 30_encoding.md section 5: any value in the ignored operand bits gives the same command. -/
def Obligations.IgnoredBitsChangeNothing : Prop :=
  ∀ (w v : CmdWord) (i : Instr), decode w = .ok i →
    w &&& (0xFFFFFFFF#32 ++ operandBits i : BitVec 64) = v &&& (0xFFFFFFFF#32 ++ operandBits i : BitVec 64) →
    decode v = .ok i

/-- Words written out in 30_encoding.md section 7, 42_status_lut.md and 95_test_vectors.md section 2 decode to the
commands they stand for. -/
def Obligations.SpecWordsDecode : Prop :=
  decode 0x1300000000616263 = .ok (.enc3 0x61 0x62 0x63) ∧
  decode 0x1200000000646500 = .ok (.enc2 0x64 0x65) ∧
  decode 0x1100000000640000 = .ok (.enc1 0x64) ∧
  decode 0x10000000DEADBEEF = .ok .enc0 ∧
  decode 0x2000000000000008 = .ok (.dstart 8) ∧
  decode 0x2100000059574A6A = .ok (.dgrp 0x59 0x57 0x4A 0x6A) ∧
  decode 0x30000000FFFFFFE3 = .ok (.lutf 35) ∧
  decode 0x3100000012345641 = .ok (.luti 0x41) ∧
  decode 0x4000000000000003 = .ok (.drd 3) ∧
  decode 0x4000000000000100 = .ok (.drd 0)

/-- 30_encoding.md section 7: the printed form of a command assembles to its word. The radix and the spacing of
the printed form are the model's choice (log entry 15). -/
def Obligations.AssembleUndoesPrint : Prop :=
  ∀ i : Instr, i.wf = true → assemble (printInstr i) = some (encode i)

/-- R63: the four fields of every response, `COUNT` and `LAST` per command. -/
def Obligations.ResponseFieldsPerCommand : Prop :=
  (∀ (st : BitVec 4) (n : BitVec 3) (l : Bool) (d : Word),
    let r : RspWord := st ++ n ++ BitVec.ofBool l ++ d
    rspStatus r = st ∧ rspCount r = n ∧ rspLast r = l ∧ rspData r = d) ∧
  ∀ (i : Instr) (s : State), ∃ t r, exec i s = .next t ∧
    t.pending = s.pending ++ [⟨r, Config.extraLatency⟩] ∧
    r = (rspStatus r ++ rspCount r ++ BitVec.ofBool (rspLast r) ++ rspData r : BitVec 40) ∧
    (rspStatus r ≠ 0 → rspCount r = 0 ∧ rspLast r = false) ∧
    (rspStatus r = 0 →
      match i with
      | .enc3 _ _ _ => rspCount r = 4 ∧ rspLast r = false
      | .enc2 _ _ => rspCount r = 4 ∧ rspLast r = false
      | .enc1 _ => rspCount r = 4 ∧ rspLast r = false
      | .dgrp _ _ _ _ => 1 ≤ (rspCount r).toNat ∧ (rspCount r).toNat ≤ 3 ∧
          (rspLast r = true ↔ s.drem = 1) ∧ (rspLast r = true → t.dstate = .done)
      | .dstart len => rspCount r = 0 ∧ (rspLast r = true ↔ len = 0) ∧
          (rspLast r = true → t.dstate = .done)
      | _ => rspCount r = 0 ∧ rspLast r = false)

/-- R64, row by row of its table. The command of an `OK` response answers as its own meaning does; the offending symbol
of status 2 is the lowest of the group with one of the causes of R103. -/
def Obligations.StatusProducers : Prop :=
  ∀ (w : CmdWord) (s : State),
    let cause := fun (group : List Byte) (k : Nat) => (inv (group.getD k 0)).1 = .invalid ∨
      (group.getD k 0 = 0x3D ∧ (s.drem ≠ 1 ∨ k < 2))
    ∃ t r, runWord w s = .next t ∧
    t.pending = s.pending ++ [⟨r, Config.extraLatency⟩] ∧
    (rspStatus r).toNat ≤ 5 ∧
    (rspStatus r = 0 → ∃ i, decode w = .ok i ∧ exec i s = .next t) ∧
    (1 ≤ (rspStatus r).toNat ∧ (rspStatus r).toNat ≤ 3 → (rspStatus r).toNat = t.derr.code.toNat) ∧
    (rspStatus r = 1 → (∃ len, decode w = .ok (.dstart len)) ∧ rspData r = 0) ∧
    (rspStatus r = 2 → s.dstate = .active ∧ rspData r = t.derrpos ∧
      ∃ s0 s1 s2 s3 j, decode w = .ok (.dgrp s0 s1 s2 s3) ∧ j < 4 ∧ rspData r = s.dpos + BitVec.ofNat 32 j ∧
        cause [s0, s1, s2, s3] j ∧ ∀ k, k < j → ¬ cause [s0, s1, s2, s3] k) ∧
    (rspStatus r = 3 → (∃ s0 s1 s2 s3, decode w = .ok (.dgrp s0 s1 s2 s3)) ∧ s.dstate = .active ∧
      rspData r = 0) ∧
    (rspStatus r = 4 → (∃ s0 s1 s2 s3, decode w = .ok (.dgrp s0 s1 s2 s3)) ∧ s.dstate ≠ .active ∧
      rspData r = 0) ∧
    ((rspStatus r = 5 ↔ ∃ e, decode w = .error e) ∧ (rspStatus r = 5 → rspData r = 0))

/-! ## The encoder unit -/

/-- R75. -/
def Obligations.Enc3Result : Prop :=
  ∀ (a b c : Byte) (s : State),
    let g : BitVec 24 := a ++ b ++ c
    exec (.enc3 a b c) s = .next (answering s
      (0#4 ++ 4#3 ++ 0#1 ++ (alpha (g.extractLsb 23 18) ++ alpha (g.extractLsb 17 12) ++
        alpha (g.extractLsb 11 6) ++ alpha (g.extractLsb 5 0) : BitVec 32) : BitVec 40))

/-- R76. -/
def Obligations.Enc2Result : Prop :=
  ∀ (a b : Byte) (s : State),
    let g : BitVec 24 := a ++ b ++ 0x00#8
    exec (.enc2 a b) s = .next (answering s
      (0#4 ++ 4#3 ++ 0#1 ++ (alpha (g.extractLsb 23 18) ++ alpha (g.extractLsb 17 12) ++
        alpha (g.extractLsb 11 6) ++ 0x3D#8 : BitVec 32) : BitVec 40))

/-- R77. -/
def Obligations.Enc1Result : Prop :=
  ∀ (a : Byte) (s : State),
    let g : BitVec 24 := a ++ 0x00#8 ++ 0x00#8
    exec (.enc1 a) s = .next (answering s
      (0#4 ++ 4#3 ++ 0#1 ++ (alpha (g.extractLsb 23 18) ++ alpha (g.extractLsb 17 12) ++
        0x3D#8 ++ 0x3D#8 : BitVec 32) : BitVec 40))

/-- R78. -/
def Obligations.Enc0Result : Prop :=
  ∀ s : State, exec .enc0 s = .next (answering s 0x0000000000)

/-- 40_encoder.md section 2: `SPLIT` equals, term by term, the document's shift and mask formulas on unbounded
naturals, and the remainder formulas are the same with the missing bytes 0. -/
def Obligations.SplitEqualsShiftFormulas : Prop :=
  ∀ a b c : Byte,
    ((split (byteGroup a b c)).1.toNat = a.toNat >>> 2) ∧
    ((split (byteGroup a b c)).2.1.toNat = ((a.toNat <<< 4) ||| (b.toNat >>> 4)) &&& 0x3F) ∧
    ((split (byteGroup a b c)).2.2.1.toNat = ((b.toNat <<< 2) ||| (c.toNat >>> 6)) &&& 0x3F) ∧
    ((split (byteGroup a b c)).2.2.2.toNat = c.toNat &&& 0x3F) ∧
    ((split (byteGroup a b 0)).2.2.1.toNat = (b.toNat <<< 2) &&& 0x3F) ∧
    ((split (byteGroup a 0 0)).2.1.toNat = (a.toNat <<< 4) &&& 0x3F)

/-- 40_encoder.md R84's view: each 8-bit lane of the result is the alphabet symbol of its own 6-bit lane of the
group, or the padding symbol. -/
def Obligations.EncoderLanes : Prop :=
  ∀ (a b c : Byte) (s : State), ∃ t3 t2 t1 r3 r2 r1,
    exec (.enc3 a b c) s = .next t3 ∧ t3.pending = s.pending ++ [⟨r3, Config.extraLatency⟩] ∧
    exec (.enc2 a b) s = .next t2 ∧ t2.pending = s.pending ++ [⟨r2, Config.extraLatency⟩] ∧
    exec (.enc1 a) s = .next t1 ∧ t1.pending = s.pending ++ [⟨r1, Config.extraLatency⟩] ∧
    ∀ k, k < 4 →
      (rspData r3).extractLsb' (24 - 8 * k) 8 = alpha ((byteGroup a b c).extractLsb' (18 - 6 * k) 6) ∧
      (rspData r2).extractLsb' (24 - 8 * k) 8 =
        (if k = 3 then padSymbol else alpha ((byteGroup a b 0).extractLsb' (18 - 6 * k) 6)) ∧
      (rspData r1).extractLsb' (24 - 8 * k) 8 =
        (if 2 ≤ k then padSymbol else alpha ((byteGroup a 0 0).extractLsb' (18 - 6 * k) 6))

/-- R79: an encoder command's response is `OK` and the same in every state, and it leaves every decoder register. -/
def Obligations.EncoderIgnoresAndKeepsState : Prop :=
  ∀ i : Instr, (i = .enc0 ∨ (∃ a, i = .enc1 a) ∨ (∃ a b, i = .enc2 a b) ∨ ∃ a b c, i = .enc3 a b c) →
    ∃ r, rspStatus r = 0 ∧ ∀ s : State, exec i s = .next (answering s r)

/-! ## The decoder unit -/

/-- R85: the three branches. -/
def Obligations.DstartResult : Prop :=
  ∀ (len : Word) (s : State),
    (len.toNat % 4 ≠ 0 → exec (.dstart len) s = .next (answering
      { s with dpos := 0, drem := 0, dstate := .error, derr := .invalidLength, derrpos := 0 } 0x1000000000)) ∧
    (len = 0 → exec (.dstart len) s = .next (answering
      { s with dpos := 0, drem := 0, dstate := .done, derr := .none, derrpos := 0 } 0x0100000000)) ∧
    (len.toNat % 4 = 0 ∧ len ≠ 0 → exec (.dstart len) s = .next (answering
      { s with dpos := 0, drem := BitVec.ofNat 32 (len.toNat / 4), dstate := .active, derr := .none, derrpos := 0 }
      0x0000000000))

/-- R105. -/
def Obligations.DgrpNoStream : Prop :=
  ∀ (s0 s1 s2 s3 : Byte) (s : State), s.dstate ≠ .active →
    exec (.dgrp s0 s1 s2 s3) s = .next (answering s 0x4000000000)

/-- R103: the causes (a), (b), (c) at position `j`, none below it, and the recorded position. -/
def Obligations.DgrpUnexpectedCharacter : Prop :=
  ∀ (s0 s1 s2 s3 : Byte) (s : State) (j : Nat), s.dstate = .active → j < 4 →
    let symbol := fun k : Nat => [s0, s1, s2, s3].getD k 0
    let cause := fun k : Nat => (inv (symbol k)).1 = .invalid ∨
      (symbol k = 0x3D ∧ s.drem ≠ 1) ∨ (symbol k = 0x3D ∧ s.drem = 1 ∧ k < 2)
    cause j → (∀ k, k < j → ¬ cause k) →
    exec (.dgrp s0 s1 s2 s3) s = .next (answering
      { s with dstate := .error, derr := .unexpectedCharacter, derrpos := s.dpos + BitVec.ofNat 32 j }
      (2#4 ++ 0#3 ++ 0#1 ++ (s.dpos + BitVec.ofNat 32 j) : BitVec 40))

/-- The row `D D P D` of R88 (conflict C3). -/
def Obligations.DgrpInvalidPadding : Prop :=
  ∀ (s0 s1 s3 : Byte) (s : State), s.dstate = .active → s.drem = 1 →
    (inv s0).1 = .data → (inv s1).1 = .data → (inv s3).1 = .data →
    exec (.dgrp s0 s1 0x3D s3) s = .next (answering
      { s with dstate := .error, derr := .invalidPadding, derrpos := 0 } 0x3000000000)

/-- The row `D D D D` of R88, final or not, with the registers and the response of R86. -/
def Obligations.DgrpFullGroup : Prop :=
  ∀ (s0 s1 s2 s3 : Byte) (s : State), s.dstate = .active →
    (inv s0).1 = .data → (inv s1).1 = .data → (inv s2).1 = .data → (inv s3).1 = .data →
    exec (.dgrp s0 s1 s2 s3) s = .next (answering
      { s with dpos := s.dpos + 4, drem := s.drem - 1, dstate := if s.drem = 1 then .done else .active }
      (0#4 ++ 3#3 ++ (if s.drem = 1 then 1#1 else 0#1) ++
        (0#8 ++ ((inv s0).2 ++ (inv s1).2 ++ (inv s2).2 ++ (inv s3).2 : BitVec 24) : BitVec 32) : BitVec 40))

/-- R90: what a final group delivers, with no pad, one pad and two pads. The bits of the data symbols that no delivered
byte holds are free, and the undelivered lanes are 0. -/
def Obligations.DgrpFinalGroupOutput : Prop :=
  ∀ (s0 s1 s2 s3 : Byte) (s : State), s.dstate = .active → s.drem = 1 →
    (inv s0).1 = .data → (inv s1).1 = .data →
    let w : BitVec 24 := (inv s0).2 ++ (inv s1).2 ++ (inv s2).2 ++ (inv s3).2
    let t : State := { s with dpos := s.dpos + 4, drem := 0, dstate := .done }
    ((inv s2).1 = .data → (inv s3).1 = .data →
      exec (.dgrp s0 s1 s2 s3) s = .next (answering t (0#4 ++ 3#3 ++ 1#1 ++ (0#8 ++ w : BitVec 32) : BitVec 40))) ∧
    ((inv s2).1 = .data → s3 = 0x3D →
      exec (.dgrp s0 s1 s2 s3) s = .next (answering t (0#4 ++ 2#3 ++ 1#1 ++
        (0#8 ++ w.extractLsb 23 16 ++ w.extractLsb 15 8 ++ 0#8 : BitVec 32) : BitVec 40))) ∧
    (s2 = 0x3D → s3 = 0x3D →
      exec (.dgrp s0 s1 s2 s3) s = .next (answering t (0#4 ++ 1#3 ++ 1#1 ++
        (0#8 ++ w.extractLsb 23 16 ++ 0#8 ++ 0#8 : BitVec 32) : BitVec 40)))

/-- 41_decoder.md section 2: `COLLAPSE` equals the document's formulas, the third taken to 8 bits (conflict C2). -/
def Obligations.CollapseEqualsShiftFormulas : Prop :=
  ∀ v1 v2 v3 v4 : Index,
    (collapse v1 v2 v3 v4).1.toNat = (v1.toNat <<< 2) ||| (v2.toNat >>> 4) ∧
    (collapse v1 v2 v3 v4).2.1.toNat = ((v2.toNat &&& 0x0F) <<< 4) ||| (v3.toNat >>> 2) ∧
    (collapse v1 v2 v3 v4).2.2.toNat = ((v3.toNat <<< 6) ||| v4.toNat) % 2 ^ 8

/-- 20_memory.md section 2: a `DGRP` of an active stream accepts all four symbols or none. -/
def Obligations.DgrpIsAtomic : Prop :=
  ∀ (s0 s1 s2 s3 : Byte) (s : State), s.dstate = .active →
    ∃ t r, exec (.dgrp s0 s1 s2 s3) s = .next t ∧ t.pending = s.pending ++ [⟨r, Config.extraLatency⟩] ∧
      ((rspStatus r = 0 ∧ t.dpos = s.dpos + 4 ∧ t.drem = s.drem - 1 ∧
          1 ≤ (rspCount r).toNat ∧ (rspCount r).toNat ≤ 3 ∧ t.derr = s.derr ∧ t.derrpos = s.derrpos) ∨
        ((rspStatus r = 2 ∨ rspStatus r = 3) ∧ t.dpos = s.dpos ∧ t.drem = s.drem ∧ rspCount r = 0 ∧
          t.dstate = .error))

/-! ## Status and table probes -/

/-- R95: the four registers of R43, and the words of the opcode that R66 rejects before the command sees them. -/
def Obligations.DrdResult : Prop :=
  ∀ s : State,
    exec (.drd 0) s = .next (answering s
      (0#4 ++ 0#3 ++ 0#1 ++ (0#28 ++ s.derr.code ++ s.dstate.code : BitVec 32) : BitVec 40)) ∧
    exec (.drd 1) s = .next (answering s (0#4 ++ 0#3 ++ 0#1 ++ s.derrpos : BitVec 40)) ∧
    exec (.drd 2) s = .next (answering s (0#4 ++ 0#3 ++ 0#1 ++ s.dpos : BitVec 40)) ∧
    exec (.drd 3) s = .next (answering s (0#4 ++ 0#3 ++ 0#1 ++ s.drem : BitVec 40)) ∧
    ∀ w : CmdWord, w.toNat / 2 ^ 56 = 0x40 → (3 < w.toNat % 2 ^ 8 ∨ w.toNat / 2 ^ 32 % 2 ^ 24 ≠ 0) →
      runWord w s = .next (answering s 0x5000000000)

/-- The model's reading (log entry 11, DEDUCED) of a register number that no word carries to `DRD`, since R66 rejects
the word first: the command itself answers `IllegalCommand` too. -/
def Obligations.DrdUnimplementedRegister : Prop :=
  ∀ (regno : Byte) (s : State), 3 < regno.toNat → exec (.drd regno) s = .next (answering s 0x5000000000)

/-- R96. -/
def Obligations.LutfResult : Prop :=
  ∀ (idx : Index) (s : State),
    exec (.lutf idx) s = .next (answering s (0#4 ++ 0#3 ++ 0#1 ++ (0#24 ++ alpha idx : BitVec 32) : BitVec 40))

/-- R97. -/
def Obligations.LutiResult : Prop :=
  ∀ (sym : Byte) (s : State),
    exec (.luti sym) s = .next (answering s
      (0#4 ++ 0#3 ++ 0#1 ++ (0#24 ++ ((inv sym).1.code ++ (inv sym).2 : BitVec 8) : BitVec 32) : BitVec 40))

/-- 42_status_lut.md R98's check, run on the block: `LUTF i`, then `LUTI` of the octet it answered, gives `i`. -/
def Obligations.ProbesShowTablesInverse : Prop :=
  ∀ (i : Index) (s : State), ∃ t r u q,
    exec (.lutf i) s = .next t ∧ t.pending = s.pending ++ [⟨r, Config.extraLatency⟩] ∧
    exec (.luti (byte0Of (rspData r))) t = .next u ∧ u.pending = t.pending ++ [⟨q, Config.extraLatency⟩] ∧
    rspStatus q = 0 ∧ (rspData q).toNat = i.toNat

/-! ## All commands -/

/-- 10_state.md R38, R43 and 20_memory.md R55 for the registers: only `DSTART` and `DGRP` write one. -/
def Obligations.OnlyStreamCommandsWriteRegisters : Prop :=
  ∀ (w : CmdWord) (s t : State), runWord w s = .next t →
    (∀ i, decode w = .ok i → writesRegisters i = false) → SameRegisters s t

/-- Every command, in every state, answers exactly one response, behind those that wait, and touches no port. -/
def Obligations.EveryCommandAnswersOnce : Prop :=
  ∀ (i : Instr) (s : State), ∃ t r, exec i s = .next t ∧
    t.pending = s.pending ++ [⟨r, Config.extraLatency⟩] ∧ SamePorts s t

/-- R109: while `DSTATE = ERROR` every register keeps its value, but for reset, which clears all five, and `DSTART`. -/
def Obligations.ErrorIsKeptUntilDstartOrReset : Prop :=
  ∀ s t : State, s.sawReset = true → s.dstate = .error → step s = .next t →
    SameRegisters s t ∨
    ((drivenEdge s).rstN = false ∧ t.dstate = .idle ∧ t.drem = 0 ∧ t.dpos = 0 ∧ t.derr = .none ∧
      t.derrpos = 0) ∨
    ∃ len, accepts s (drivenEdge s) = true ∧ decode (drivenEdge s).cmdWord = .ok (.dstart len) ∧
      (len.toNat % 4 = 0 → t.dstate ≠ .error ∧ t.derr = .none ∧ t.derrpos = 0)

/-! ## Reset and the ports -/

/-- R47. -/
def Obligations.ResetState : Prop :=
  State.reset.dstate = .idle ∧ State.reset.drem = 0 ∧ State.reset.dpos = 0 ∧ State.reset.derr = .none ∧
  State.reset.derrpos = 0 ∧ State.reset.pending = [] ∧ State.reset.offer = none

/-- 70_reset_and_hazards.md R115: an edge with `rst_n = 0`, in every state, before the first reset as well. Three clauses
rest on the model's choices: `cmd_ready = rsp_valid = 0` during the edge is claimed after the first reset alone (log
entry 18, DEDUCED), the next edge accepts unless the block stalls of its own choice (log entry 6, DESIGN CHOICE), and
`accepted` and `taken` are the model's record (log entry 10, DESIGN CHOICE). -/
def Obligations.ResetEdgeClearsBlock : Prop :=
  ∀ s : State, (drivenEdge s).rstN = false → ∃ t, step s = .next t ∧
    SameRegisters State.reset t ∧ t.pending = [] ∧ t.offer = none ∧ t.accepted = [] ∧ t.taken = [] ∧
    t.sawReset = true ∧ (t.stall = 0 → cmdReady t true = true) ∧
    (s.sawReset = true → cmdReady s false = false ∧ rspValid s false = false)

/-- A step that accepts a word the decoder reads is that command's effect, on the state the rest of the edge leaves:
the registers as they were, nothing lost of what was answered, the word recorded. -/
def Obligations.StepRunsAcceptedCommand : Prop :=
  ∀ (s : State) (i : Instr), s.sawReset = true → breaksOffer s (drivenEdge s) = false →
    accepts s (drivenEdge s) = true → decode (drivenEdge s).cmdWord = .ok i →
    step s = exec i (acceptEdge (drivenEdge s) s) ∧
    SameRegisters s (acceptEdge (drivenEdge s) s) ∧
    (acceptEdge (drivenEdge s) s).accepted = s.accepted ++ [(drivenEdge s).cmdWord] ∧
    (acceptEdge (drivenEdge s) s).offer = none ∧
    (acceptEdge (drivenEdge s) s).taken ++ (acceptEdge (drivenEdge s) s).pending.map Pending.rsp =
      s.taken ++ s.pending.map Pending.rsp

/-- R106: an accepted word that the decoder rejects is answered `IllegalCommand` and changes no register. -/
def Obligations.StepAnswersIllegalWord : Prop :=
  ∀ (s : State) (e : Reject), s.sawReset = true → breaksOffer s (drivenEdge s) = false →
    accepts s (drivenEdge s) = true → decode (drivenEdge s).cmdWord = .error e →
    ∃ t, step s = .next t ∧ t = answering (acceptEdge (drivenEdge s) s) 0x5000000000 ∧ SameRegisters s t ∧
      t.sawReset = true ∧ t.offer = none

/-- 30_encoding.md section 1: a command offered at an edge with `cmd_ready = 0` is not accepted; it stays offered and
changes nothing else of the decoder. -/
def Obligations.CommandWaitsWhileNotReady : Prop :=
  ∀ s : State, s.sawReset = true → (drivenEdge s).rstN = true → (drivenEdge s).cmdValid = true →
    breaksOffer s (drivenEdge s) = false → cmdReady s true = false →
    ∃ t, step s = .next t ∧ t.offer = some (drivenEdge s).cmdWord ∧ t.accepted = s.accepted ∧ SameRegisters s t ∧
      t.taken ++ t.pending.map Pending.rsp = s.taken ++ s.pending.map Pending.rsp

/-- 30_encoding.md section 1: `cmd_ready = 0` whenever `CMD_DEPTH` accepted commands have responses not yet taken, and
below that only while the block stalls of its own choice (log entry 6). -/
def Obligations.ReadyIsLowAtDepth : Prop :=
  ∀ s : State, s.sawReset = true →
    (Config.cmdDepth ≤ s.pending.length → cmdReady s true = false) ∧
    (s.pending.length < Config.cmdDepth → s.stall = 0 → cmdReady s true = true)

/-- 30_encoding.md section 1: an offered response keeps `rsp_valid = 1` and `rsp_word` until it is taken or reset is
asserted. -/
def Obligations.OfferedResponseIsStable : Prop :=
  ∀ s t : State, s.sawReset = true → (drivenEdge s).rstN = true → (drivenEdge s).rspReady = false →
    rspValid s true = true → step s = .next t →
    rspValid t true = true ∧ rspWord t true = rspWord s true ∧ t.taken = s.taken

/-- 30_encoding.md section 1: a response is taken exactly when `rsp_valid`, `rsp_ready` and `rst_n` are 1, and it is the
oldest of those that wait. -/
def Obligations.TakenResponseIsOldest : Prop :=
  ∀ s t : State, s.sawReset = true → (drivenEdge s).rstN = true → step s = .next t →
    (rspValid s true = true ∧ (drivenEdge s).rspReady = true →
      t.taken = s.taken ++ [rspWord s true] ∧ (s.pending.map Pending.rsp).head? = some (rspWord s true)) ∧
    (¬ (rspValid s true = true ∧ (drivenEdge s).rspReady = true) → t.taken = s.taken)

/-- The block never stops (60_exceptions.md section 1): a step is refused exactly when the host offers a command before
the first reset or breaks its first duty (70_reset_and_hazards.md R116, R117; U2, U3). -/
def Obligations.StepStopsOnlyOnHostBreach : Prop :=
  ∀ s : State,
    let e := drivenEdge s
    (step s = .refused .commandBeforeReset ↔ e.rstN = true ∧ s.sawReset = false ∧ e.cmdValid = true) ∧
    (step s = .refused .hostBrokeOffer ↔ e.rstN = true ∧ s.sawReset = true ∧
      ∃ w, s.offer = some w ∧ ¬ (e.cmdValid = true ∧ e.cmdWord = w)) ∧
    ((∃ t, step s = .next t) ∨ step s = .refused .commandBeforeReset ∨ step s = .refused .hostBrokeOffer)

/-! ## Invariants -/

/-- 10_state.md R45: never more than `CMD_DEPTH` responses wait. -/
def Obligations.StepKeepsDepthBound : Prop :=
  ∀ s t : State, (s.sawReset = true → DepthInv s) → step s = .next t → t.sawReset = true → DepthInv t

/-- 20_memory.md R52 and 70_reset_and_hazards.md R117: whatever the stalls, the latency and the host's pace, the
responses taken and waiting are the answers, in acceptance order, to the accepted words executed one at a time from
reset, and the decoder registers are what those words leave. -/
def Obligations.StepKeepsAnswersInAcceptanceOrder : Prop :=
  ∀ s t : State, (s.sawReset = true → AnswerInv s) → step s = .next t → t.sawReset = true → AnswerInv t

/-- 10_state.md R44: every step keeps the decoder's invariants, from every state that has them. -/
def Obligations.StepKeepsDecoderInvariants : Prop :=
  ∀ s t : State, (s.sawReset = true → DecoderInv s) → step s = .next t → t.sawReset = true → DecoderInv t

/-- The reset state has the invariants, and so has power-on, where nothing is claimed (log entry 8). -/
def Obligations.ResetMeetsInvariants : Prop :=
  DecoderInv State.reset ∧ DepthInv State.reset ∧ AnswerInv State.reset ∧ BlockInv State.powerOn

/-- 10_state.md R43: the legal values of the status registers follow from the invariants. -/
def Obligations.InvariantsGiveLegalRegisters : Prop :=
  ∀ s : State, DecoderInv s → LegalRegisters s

/-! ## Progress (70_reset_and_hazards.md R125: an assumption of the spec; the model's finite stalls, log entry 16)

That an empty list of inputs is a host that keeps its offer, offers nothing new and takes every response is the model's
choice (log entry 2, DESIGN CHOICE); each statement of this section has that premise and rests on it. -/

/-- A command the host keeps offering while it takes responses is accepted. The host is the model's host of an empty
input list (log entry 2, DESIGN CHOICE); that stalls end is log entry 16 (DEDUCED). -/
def Obligations.OfferedCommandIsAccepted : Prop :=
  ∀ (s : State) (w : CmdWord), s.sawReset = true → s.inputs = [] → s.offer = some w →
    ∃ k t, Reaches (k + 1) s t ∧ t.accepted = s.accepted ++ [w]

/-- While the host offers nothing and takes responses (an empty input list: log entry 2, DESIGN CHOICE), everything that
waits is delivered, in order (log entries 5 and 16, DEDUCED). -/
def Obligations.WaitingResponsesAreDelivered : Prop :=
  ∀ s : State, s.sawReset = true → s.inputs = [] → s.offer = none →
    ∃ k t, Reaches k s t ∧ t.pending = [] ∧ t.taken = s.taken ++ s.pending.map Pending.rsp

/-- A response with nothing before it is offered when its wait has run down and not earlier: with `LATENCY - 1` at
acceptance (log entry 5, DEDUCED), at the `LATENCY`-th edge after it. The host has no inputs left and offers nothing, so
that it takes the response at the next edge (log entry 2, DESIGN CHOICE). -/
def Obligations.ResponseIsOfferedAfterItsWait : Prop :=
  ∀ (s : State) (p : Pending), s.sawReset = true → s.inputs = [] → s.offer = none → s.pending = [p] →
    (∀ k, k ≤ p.wait → ∃ t, Reaches k s t ∧ t.taken = s.taken ∧ (rspValid t true = true ↔ k = p.wait)) ∧
    ∃ t, Reaches (p.wait + 1) s t ∧ t.taken = s.taken ++ [p.rsp] ∧ t.pending = []

/-! ## The document's two functions (70_reset_and_hazards.md R119, R120) -/

/-- 40_encoder.md R82 and R83: the host's `encode` gives `4 * ceil(n / 3)` symbols, with `=` in the last two
positions alone, from any state and without touching a decode stream. -/
def Obligations.HostEncodeLengthAndPadding : Prop :=
  ∀ (b : List Byte) (s : State), ∃ text t, hostEncode b s = some (text, t) ∧
    text.length = 4 * ((b.length + 2) / 3) ∧ SameRegisters s t ∧
    (∀ k, text[k]? = some padSymbol → text.length ≤ k + 2) ∧
    (b.length % 3 = 0 → padSymbol ∉ text)

/-- 70_reset_and_hazards.md R120 with 00_scope.md R12 and conflict C6: the host's `decode` has a result for every text,
and what the length alone decides. -/
def Obligations.HostDecodeByLength : Prop :=
  ∀ (text : List Byte) (s : State), ∃ r t, hostDecode text s = some (r, t) ∧
    (r = .notExpressible ↔ 2 ^ 32 ≤ text.length) ∧
    (r = .invalidLength ↔ text.length < 2 ^ 32 ∧ text.length % 4 ≠ 0) ∧
    (text = [] → r = .bytes [] ∧ t.dstate = .done)

/-- 41_decoder.md R93, the length law: `3n - p` bytes for `4n` symbols with `p` pads, and the stream has ended. -/
def Obligations.HostDecodeLengthLaw : Prop :=
  ∀ (text b : List Byte) (s t : State), hostDecode text s = some (.bytes b, t) →
    text.length % 4 = 0 ∧ b.length + text.count padSymbol = 3 * (text.length / 4) ∧
    text.count padSymbol ≤ 2 ∧ t.dstate = .done

/-- 60_exceptions.md R103 and 41_decoder.md R91 over the whole text: an octet has a cause when it is `INVALID` or is a
padding symbol before the last two positions; the reported position is the lowest index with a cause. -/
def Obligations.HostDecodeErrorPosition : Prop :=
  ∀ (text : List Byte) (p : Word) (s t : State), hostDecode text s = some (.unexpectedCharacter p, t) →
    let cause := fun k : Nat => ∃ c, text[k]? = some c ∧
      ((inv c).1 = .invalid ∨ (c = 0x3D ∧ k + 2 < text.length))
    cause p.toNat ∧ (∀ k, k < p.toNat → ¬ cause k) ∧
    t.dstate = .error ∧ t.derr = .unexpectedCharacter ∧ t.derrpos = p

/-- 41_decoder.md R93, the round trip: for every byte buffer whose text has a length the block can be told,
`decode(encode(b)) = b`. -/
def Obligations.HostRoundTrip : Prop :=
  ∀ (b : List Byte) (s : State), 4 * ((b.length + 2) / 3) < 2 ^ 32 →
    ∃ text t u, hostEncode b s = some (text, t) ∧ hostDecode text t = some (.bytes b, u)
end

