-- ==== Sys2Proof/Laws/Bits.lean ====
section
/-! SUPPORT. Concatenations of the widths the block uses, as numbers: the first part is the more significant one
(00_scope.md R14). With `BitVec.extractLsb'_toNat` they turn a question about fields into one for omega. -/

namespace Sys2Proof

theorem toNat_append_add {n m : Nat} (x : BitVec n) (y : BitVec m) :
    (x ++ y).toNat = x.toNat * 2 ^ m + y.toNat := by
  rw [BitVec.toNat_append, Nat.shiftLeft_eq, Nat.mul_comm, Nat.two_pow_add_eq_or_of_lt y.isLt]

theorem toNat_extract {n : Nat} (x : BitVec n) (start len : Nat) :
    (x.extractLsb' start len).toNat = x.toNat / 2 ^ start % 2 ^ len := by
  rw [BitVec.extractLsb'_toNat, Nat.shiftRight_eq_div_pow]

theorem toNat_cat_8_24_32 (a : BitVec 8) (b : BitVec 24) (c : BitVec 32) :
    (a ++ b ++ c : BitVec 64).toNat = (a.toNat * 2 ^ 24 + b.toNat) * 2 ^ 32 + c.toNat :=
  (toNat_append_add (a ++ b) c).trans (by rw [toNat_append_add a b])

theorem toNat_cat_4_3_1_32 (a : BitVec 4) (b : BitVec 3) (c : BitVec 1) (d : BitVec 32) :
    (a ++ b ++ c ++ d : BitVec 40).toNat =
      ((a.toNat * 2 ^ 3 + b.toNat) * 2 ^ 1 + c.toNat) * 2 ^ 32 + d.toNat :=
  (toNat_append_add (a ++ b ++ c) d).trans (by rw [toNat_append_add (a ++ b) c, toNat_append_add a b])

theorem toNat_cat_8_8_8_8 (a b c d : BitVec 8) :
    (a ++ b ++ c ++ d : BitVec 32).toNat =
      ((a.toNat * 2 ^ 8 + b.toNat) * 2 ^ 8 + c.toNat) * 2 ^ 8 + d.toNat :=
  (toNat_append_add (a ++ b ++ c) d).trans (by rw [toNat_append_add (a ++ b) c, toNat_append_add a b])

theorem toNat_cat_8_8_8 (a b c : BitVec 8) :
    (a ++ b ++ c : BitVec 24).toNat = (a.toNat * 2 ^ 8 + b.toNat) * 2 ^ 8 + c.toNat :=
  (toNat_append_add (a ++ b) c).trans (by rw [toNat_append_add a b])

theorem toNat_cat_6_6_6_6 (a b c d : BitVec 6) :
    (a ++ b ++ c ++ d : BitVec 24).toNat =
      ((a.toNat * 2 ^ 6 + b.toNat) * 2 ^ 6 + c.toNat) * 2 ^ 6 + d.toNat :=
  (toNat_append_add (a ++ b ++ c) d).trans (by rw [toNat_append_add (a ++ b) c, toNat_append_add a b])

theorem toNat_cat_8_8_16 (a b : BitVec 8) (c : BitVec 16) :
    (a ++ b ++ c : BitVec 32).toNat = (a.toNat * 2 ^ 8 + b.toNat) * 2 ^ 16 + c.toNat :=
  (toNat_append_add (a ++ b) c).trans (by rw [toNat_append_add a b])

theorem toNat_cat_24_8 (a : BitVec 24) (b : BitVec 8) :
    (a ++ b : BitVec 32).toNat = a.toNat * 2 ^ 8 + b.toNat := toNat_append_add a b

theorem toNat_cat_26_6 (a : BitVec 26) (b : BitVec 6) :
    (a ++ b : BitVec 32).toNat = a.toNat * 2 ^ 6 + b.toNat := toNat_append_add a b

theorem toNat_cat_2_6 (a : BitVec 2) (b : BitVec 6) :
    (a ++ b : BitVec 8).toNat = a.toNat * 2 ^ 6 + b.toNat := toNat_append_add a b

theorem toNat_cat_28_2_2 (a : BitVec 28) (b c : BitVec 2) :
    (a ++ b ++ c : BitVec 32).toNat = (a.toNat * 2 ^ 2 + b.toNat) * 2 ^ 2 + c.toNat :=
  (toNat_append_add (a ++ b) c).trans (by rw [toNat_append_add a b])

end Sys2Proof
end

