-- ==== Sys2Proof/Laws/State.lean ====
section
/-! SUPPORT. One lemma per field of `State` for each named update: each is true by rfl. -/

namespace Sys2Proof.Machine

/-! `respond` (R15 `respond`) -/

@[simp] theorem respond_dstate (st : Status) (n : BitVec 3) (l : Bool) (d : Word) (s : State) :
    (respond st n l d s).dstate = s.dstate := rfl
@[simp] theorem respond_drem (st : Status) (n : BitVec 3) (l : Bool) (d : Word) (s : State) :
    (respond st n l d s).drem = s.drem := rfl
@[simp] theorem respond_dpos (st : Status) (n : BitVec 3) (l : Bool) (d : Word) (s : State) :
    (respond st n l d s).dpos = s.dpos := rfl
@[simp] theorem respond_derr (st : Status) (n : BitVec 3) (l : Bool) (d : Word) (s : State) :
    (respond st n l d s).derr = s.derr := rfl
@[simp] theorem respond_derrpos (st : Status) (n : BitVec 3) (l : Bool) (d : Word) (s : State) :
    (respond st n l d s).derrpos = s.derrpos := rfl
@[simp] theorem respond_pending (st : Status) (n : BitVec 3) (l : Bool) (d : Word) (s : State) :
    (respond st n l d s).pending = s.pending ++ [⟨packRsp st n l d, Config.extraLatency⟩] := rfl
@[simp] theorem respond_sawReset (st : Status) (n : BitVec 3) (l : Bool) (d : Word) (s : State) :
    (respond st n l d s).sawReset = s.sawReset := rfl
@[simp] theorem respond_offer (st : Status) (n : BitVec 3) (l : Bool) (d : Word) (s : State) :
    (respond st n l d s).offer = s.offer := rfl
@[simp] theorem respond_inputs (st : Status) (n : BitVec 3) (l : Bool) (d : Word) (s : State) :
    (respond st n l d s).inputs = s.inputs := rfl
@[simp] theorem respond_accepted (st : Status) (n : BitVec 3) (l : Bool) (d : Word) (s : State) :
    (respond st n l d s).accepted = s.accepted := rfl
@[simp] theorem respond_taken (st : Status) (n : BitVec 3) (l : Bool) (d : Word) (s : State) :
    (respond st n l d s).taken = s.taken := rfl
@[simp] theorem respond_stall (st : Status) (n : BitVec 3) (l : Bool) (d : Word) (s : State) :
    (respond st n l d s).stall = s.stall := rfl
@[simp] theorem respond_edgeCount (st : Status) (n : BitVec 3) (l : Bool) (d : Word) (s : State) :
    (respond st n l d s).edgeCount = s.edgeCount := rfl

/-! `answering` (one more response) -/

@[simp] theorem answering_dstate (s : State) (r : RspWord) :
    (answering s r).dstate = s.dstate := rfl
@[simp] theorem answering_drem (s : State) (r : RspWord) :
    (answering s r).drem = s.drem := rfl
@[simp] theorem answering_dpos (s : State) (r : RspWord) :
    (answering s r).dpos = s.dpos := rfl
@[simp] theorem answering_derr (s : State) (r : RspWord) :
    (answering s r).derr = s.derr := rfl
@[simp] theorem answering_derrpos (s : State) (r : RspWord) :
    (answering s r).derrpos = s.derrpos := rfl
@[simp] theorem answering_pending (s : State) (r : RspWord) :
    (answering s r).pending = s.pending ++ [⟨r, Config.extraLatency⟩] := rfl
@[simp] theorem answering_sawReset (s : State) (r : RspWord) :
    (answering s r).sawReset = s.sawReset := rfl
@[simp] theorem answering_offer (s : State) (r : RspWord) :
    (answering s r).offer = s.offer := rfl
@[simp] theorem answering_inputs (s : State) (r : RspWord) :
    (answering s r).inputs = s.inputs := rfl
@[simp] theorem answering_accepted (s : State) (r : RspWord) :
    (answering s r).accepted = s.accepted := rfl
@[simp] theorem answering_taken (s : State) (r : RspWord) :
    (answering s r).taken = s.taken := rfl
@[simp] theorem answering_stall (s : State) (r : RspWord) :
    (answering s r).stall = s.stall := rfl
@[simp] theorem answering_edgeCount (s : State) (r : RspWord) :
    (answering s r).edgeCount = s.edgeCount := rfl

/-! `raiseDecodeError` (R104) -/

@[simp] theorem raiseDecodeError_dstate (e : DErr) (p : Word) (s : State) :
    (raiseDecodeError e p s).dstate = .error := rfl
@[simp] theorem raiseDecodeError_drem (e : DErr) (p : Word) (s : State) :
    (raiseDecodeError e p s).drem = s.drem := rfl
@[simp] theorem raiseDecodeError_dpos (e : DErr) (p : Word) (s : State) :
    (raiseDecodeError e p s).dpos = s.dpos := rfl
@[simp] theorem raiseDecodeError_derr (e : DErr) (p : Word) (s : State) :
    (raiseDecodeError e p s).derr = e := rfl
@[simp] theorem raiseDecodeError_derrpos (e : DErr) (p : Word) (s : State) :
    (raiseDecodeError e p s).derrpos = p := rfl
@[simp] theorem raiseDecodeError_pending (e : DErr) (p : Word) (s : State) :
    (raiseDecodeError e p s).pending = s.pending ++ [⟨packRsp e.status 0 false p, Config.extraLatency⟩] := rfl
@[simp] theorem raiseDecodeError_sawReset (e : DErr) (p : Word) (s : State) :
    (raiseDecodeError e p s).sawReset = s.sawReset := rfl
@[simp] theorem raiseDecodeError_offer (e : DErr) (p : Word) (s : State) :
    (raiseDecodeError e p s).offer = s.offer := rfl
@[simp] theorem raiseDecodeError_inputs (e : DErr) (p : Word) (s : State) :
    (raiseDecodeError e p s).inputs = s.inputs := rfl
@[simp] theorem raiseDecodeError_accepted (e : DErr) (p : Word) (s : State) :
    (raiseDecodeError e p s).accepted = s.accepted := rfl
@[simp] theorem raiseDecodeError_taken (e : DErr) (p : Word) (s : State) :
    (raiseDecodeError e p s).taken = s.taken := rfl
@[simp] theorem raiseDecodeError_stall (e : DErr) (p : Word) (s : State) :
    (raiseDecodeError e p s).stall = s.stall := rfl
@[simp] theorem raiseDecodeError_edgeCount (e : DErr) (p : Word) (s : State) :
    (raiseDecodeError e p s).edgeCount = s.edgeCount := rfl

/-! `raiseNoStream` (R105) -/

@[simp] theorem raiseNoStream_dstate (s : State) :
    (raiseNoStream s).dstate = s.dstate := rfl
@[simp] theorem raiseNoStream_drem (s : State) :
    (raiseNoStream s).drem = s.drem := rfl
@[simp] theorem raiseNoStream_dpos (s : State) :
    (raiseNoStream s).dpos = s.dpos := rfl
@[simp] theorem raiseNoStream_derr (s : State) :
    (raiseNoStream s).derr = s.derr := rfl
@[simp] theorem raiseNoStream_derrpos (s : State) :
    (raiseNoStream s).derrpos = s.derrpos := rfl
@[simp] theorem raiseNoStream_pending (s : State) :
    (raiseNoStream s).pending = s.pending ++ [⟨packRsp .noStream 0 false 0, Config.extraLatency⟩] := rfl
@[simp] theorem raiseNoStream_sawReset (s : State) :
    (raiseNoStream s).sawReset = s.sawReset := rfl
@[simp] theorem raiseNoStream_offer (s : State) :
    (raiseNoStream s).offer = s.offer := rfl
@[simp] theorem raiseNoStream_inputs (s : State) :
    (raiseNoStream s).inputs = s.inputs := rfl
@[simp] theorem raiseNoStream_accepted (s : State) :
    (raiseNoStream s).accepted = s.accepted := rfl
@[simp] theorem raiseNoStream_taken (s : State) :
    (raiseNoStream s).taken = s.taken := rfl
@[simp] theorem raiseNoStream_stall (s : State) :
    (raiseNoStream s).stall = s.stall := rfl
@[simp] theorem raiseNoStream_edgeCount (s : State) :
    (raiseNoStream s).edgeCount = s.edgeCount := rfl

/-! `raiseIllegalCommand` (R106) -/

@[simp] theorem raiseIllegalCommand_dstate (s : State) :
    (raiseIllegalCommand s).dstate = s.dstate := rfl
@[simp] theorem raiseIllegalCommand_drem (s : State) :
    (raiseIllegalCommand s).drem = s.drem := rfl
@[simp] theorem raiseIllegalCommand_dpos (s : State) :
    (raiseIllegalCommand s).dpos = s.dpos := rfl
@[simp] theorem raiseIllegalCommand_derr (s : State) :
    (raiseIllegalCommand s).derr = s.derr := rfl
@[simp] theorem raiseIllegalCommand_derrpos (s : State) :
    (raiseIllegalCommand s).derrpos = s.derrpos := rfl
@[simp] theorem raiseIllegalCommand_pending (s : State) :
    (raiseIllegalCommand s).pending = s.pending ++ [⟨packRsp .illegalCommand 0 false 0, Config.extraLatency⟩] := rfl
@[simp] theorem raiseIllegalCommand_sawReset (s : State) :
    (raiseIllegalCommand s).sawReset = s.sawReset := rfl
@[simp] theorem raiseIllegalCommand_offer (s : State) :
    (raiseIllegalCommand s).offer = s.offer := rfl
@[simp] theorem raiseIllegalCommand_inputs (s : State) :
    (raiseIllegalCommand s).inputs = s.inputs := rfl
@[simp] theorem raiseIllegalCommand_accepted (s : State) :
    (raiseIllegalCommand s).accepted = s.accepted := rfl
@[simp] theorem raiseIllegalCommand_taken (s : State) :
    (raiseIllegalCommand s).taken = s.taken := rfl
@[simp] theorem raiseIllegalCommand_stall (s : State) :
    (raiseIllegalCommand s).stall = s.stall := rfl
@[simp] theorem raiseIllegalCommand_edgeCount (s : State) :
    (raiseIllegalCommand s).edgeCount = s.edgeCount := rfl

/-! `acceptGroup` (R86, an accepted group) -/

@[simp] theorem acceptGroup_dstate (fin : Bool) (n : Nat) (v0 v1 v2 v3 : Index) (s : State) :
    (acceptGroup fin n v0 v1 v2 v3 s).dstate = if fin then .done else s.dstate := rfl
@[simp] theorem acceptGroup_drem (fin : Bool) (n : Nat) (v0 v1 v2 v3 : Index) (s : State) :
    (acceptGroup fin n v0 v1 v2 v3 s).drem = s.drem - 1 := rfl
@[simp] theorem acceptGroup_dpos (fin : Bool) (n : Nat) (v0 v1 v2 v3 : Index) (s : State) :
    (acceptGroup fin n v0 v1 v2 v3 s).dpos = s.dpos + 4 := rfl
@[simp] theorem acceptGroup_derr (fin : Bool) (n : Nat) (v0 v1 v2 v3 : Index) (s : State) :
    (acceptGroup fin n v0 v1 v2 v3 s).derr = s.derr := rfl
@[simp] theorem acceptGroup_derrpos (fin : Bool) (n : Nat) (v0 v1 v2 v3 : Index) (s : State) :
    (acceptGroup fin n v0 v1 v2 v3 s).derrpos = s.derrpos := rfl
@[simp] theorem acceptGroup_pending (fin : Bool) (n : Nat) (v0 v1 v2 v3 : Index) (s : State) :
    (acceptGroup fin n v0 v1 v2 v3 s).pending = s.pending ++ [⟨packRsp .ok (BitVec.ofNat 3 (3 - n)) fin (byteWord (BitVec.ofNat 3 (3 - n)) (collapse v0 v1 v2 v3)), Config.extraLatency⟩] := rfl
@[simp] theorem acceptGroup_sawReset (fin : Bool) (n : Nat) (v0 v1 v2 v3 : Index) (s : State) :
    (acceptGroup fin n v0 v1 v2 v3 s).sawReset = s.sawReset := rfl
@[simp] theorem acceptGroup_offer (fin : Bool) (n : Nat) (v0 v1 v2 v3 : Index) (s : State) :
    (acceptGroup fin n v0 v1 v2 v3 s).offer = s.offer := rfl
@[simp] theorem acceptGroup_inputs (fin : Bool) (n : Nat) (v0 v1 v2 v3 : Index) (s : State) :
    (acceptGroup fin n v0 v1 v2 v3 s).inputs = s.inputs := rfl
@[simp] theorem acceptGroup_accepted (fin : Bool) (n : Nat) (v0 v1 v2 v3 : Index) (s : State) :
    (acceptGroup fin n v0 v1 v2 v3 s).accepted = s.accepted := rfl
@[simp] theorem acceptGroup_taken (fin : Bool) (n : Nat) (v0 v1 v2 v3 : Index) (s : State) :
    (acceptGroup fin n v0 v1 v2 v3 s).taken = s.taken := rfl
@[simp] theorem acceptGroup_stall (fin : Bool) (n : Nat) (v0 v1 v2 v3 : Index) (s : State) :
    (acceptGroup fin n v0 v1 v2 v3 s).stall = s.stall := rfl
@[simp] theorem acceptGroup_edgeCount (fin : Bool) (n : Nat) (v0 v1 v2 v3 : Index) (s : State) :
    (acceptGroup fin n v0 v1 v2 v3 s).edgeCount = s.edgeCount := rfl

/-! `clockEdge` (an edge with `rst_n = 1`) -/

@[simp] theorem clockEdge_dstate (s : State) :
    (clockEdge s).dstate = s.dstate := rfl
@[simp] theorem clockEdge_drem (s : State) :
    (clockEdge s).drem = s.drem := rfl
@[simp] theorem clockEdge_dpos (s : State) :
    (clockEdge s).dpos = s.dpos := rfl
@[simp] theorem clockEdge_derr (s : State) :
    (clockEdge s).derr = s.derr := rfl
@[simp] theorem clockEdge_derrpos (s : State) :
    (clockEdge s).derrpos = s.derrpos := rfl
@[simp] theorem clockEdge_pending (s : State) :
    (clockEdge s).pending = s.pending.map Pending.age := rfl
@[simp] theorem clockEdge_sawReset (s : State) :
    (clockEdge s).sawReset = s.sawReset := rfl
@[simp] theorem clockEdge_offer (s : State) :
    (clockEdge s).offer = s.offer := rfl
@[simp] theorem clockEdge_inputs (s : State) :
    (clockEdge s).inputs = s.inputs.tail := rfl
@[simp] theorem clockEdge_accepted (s : State) :
    (clockEdge s).accepted = s.accepted := rfl
@[simp] theorem clockEdge_taken (s : State) :
    (clockEdge s).taken = s.taken := rfl
@[simp] theorem clockEdge_stall (s : State) :
    (clockEdge s).stall = if s.stall = 0 then Config.stallEdges s.edgeCount else s.stall - 1 := rfl
@[simp] theorem clockEdge_edgeCount (s : State) :
    (clockEdge s).edgeCount = s.edgeCount + 1 := rfl

/-! `resetEdge` (R115) -/

@[simp] theorem resetEdge_dstate (s : State) :
    (resetEdge s).dstate = .idle := rfl
@[simp] theorem resetEdge_drem (s : State) :
    (resetEdge s).drem = 0 := rfl
@[simp] theorem resetEdge_dpos (s : State) :
    (resetEdge s).dpos = 0 := rfl
@[simp] theorem resetEdge_derr (s : State) :
    (resetEdge s).derr = .none := rfl
@[simp] theorem resetEdge_derrpos (s : State) :
    (resetEdge s).derrpos = 0 := rfl
@[simp] theorem resetEdge_pending (s : State) :
    (resetEdge s).pending = [] := rfl
@[simp] theorem resetEdge_sawReset (s : State) :
    (resetEdge s).sawReset = true := rfl
@[simp] theorem resetEdge_offer (s : State) :
    (resetEdge s).offer = .none := rfl
@[simp] theorem resetEdge_inputs (s : State) :
    (resetEdge s).inputs = s.inputs.tail := rfl
@[simp] theorem resetEdge_accepted (s : State) :
    (resetEdge s).accepted = [] := rfl
@[simp] theorem resetEdge_taken (s : State) :
    (resetEdge s).taken = [] := rfl
@[simp] theorem resetEdge_stall (s : State) :
    (resetEdge s).stall = Config.stallEdges s.edgeCount := rfl
@[simp] theorem resetEdge_edgeCount (s : State) :
    (resetEdge s).edgeCount = s.edgeCount + 1 := rfl

/-! `takeResponse` and the edges built on it: the fields that no case changes. -/

@[simp] theorem takeResponse_dstate (s : State) : (takeResponse s).dstate = s.dstate := by
  unfold takeResponse; split <;> rfl
@[simp] theorem takeResponse_drem (s : State) : (takeResponse s).drem = s.drem := by
  unfold takeResponse; split <;> rfl
@[simp] theorem takeResponse_dpos (s : State) : (takeResponse s).dpos = s.dpos := by
  unfold takeResponse; split <;> rfl
@[simp] theorem takeResponse_derr (s : State) : (takeResponse s).derr = s.derr := by
  unfold takeResponse; split <;> rfl
@[simp] theorem takeResponse_derrpos (s : State) : (takeResponse s).derrpos = s.derrpos := by
  unfold takeResponse; split <;> rfl
@[simp] theorem takeResponse_sawReset (s : State) : (takeResponse s).sawReset = s.sawReset := by
  unfold takeResponse; split <;> rfl
@[simp] theorem takeResponse_offer (s : State) : (takeResponse s).offer = s.offer := by
  unfold takeResponse; split <;> rfl
@[simp] theorem takeResponse_inputs (s : State) : (takeResponse s).inputs = s.inputs := by
  unfold takeResponse; split <;> rfl
@[simp] theorem takeResponse_accepted (s : State) : (takeResponse s).accepted = s.accepted := by
  unfold takeResponse; split <;> rfl
@[simp] theorem takeResponse_stall (s : State) : (takeResponse s).stall = s.stall := by
  unfold takeResponse; split <;> rfl
@[simp] theorem takeResponse_edgeCount (s : State) : (takeResponse s).edgeCount = s.edgeCount := by
  unfold takeResponse; split <;> rfl
@[simp] theorem responseEdge_dstate (e : Edge) (s : State) :
    (responseEdge e s).dstate = s.dstate := by
  unfold responseEdge; split <;> simp
@[simp] theorem responseEdge_drem (e : Edge) (s : State) :
    (responseEdge e s).drem = s.drem := by
  unfold responseEdge; split <;> simp
@[simp] theorem responseEdge_dpos (e : Edge) (s : State) :
    (responseEdge e s).dpos = s.dpos := by
  unfold responseEdge; split <;> simp
@[simp] theorem responseEdge_derr (e : Edge) (s : State) :
    (responseEdge e s).derr = s.derr := by
  unfold responseEdge; split <;> simp
@[simp] theorem responseEdge_derrpos (e : Edge) (s : State) :
    (responseEdge e s).derrpos = s.derrpos := by
  unfold responseEdge; split <;> simp
@[simp] theorem responseEdge_sawReset (e : Edge) (s : State) :
    (responseEdge e s).sawReset = s.sawReset := by
  unfold responseEdge; split <;> simp
@[simp] theorem responseEdge_offer (e : Edge) (s : State) :
    (responseEdge e s).offer = s.offer := by
  unfold responseEdge; split <;> simp
@[simp] theorem responseEdge_inputs (e : Edge) (s : State) :
    (responseEdge e s).inputs = s.inputs.tail := by
  unfold responseEdge; split <;> simp
@[simp] theorem responseEdge_accepted (e : Edge) (s : State) :
    (responseEdge e s).accepted = s.accepted := by
  unfold responseEdge; split <;> simp
@[simp] theorem responseEdge_stall (e : Edge) (s : State) :
    (responseEdge e s).stall = if s.stall = 0 then Config.stallEdges s.edgeCount else s.stall - 1 := by
  unfold responseEdge; split <;> simp
@[simp] theorem responseEdge_edgeCount (e : Edge) (s : State) :
    (responseEdge e s).edgeCount = s.edgeCount + 1 := by
  unfold responseEdge; split <;> simp
@[simp] theorem acceptEdge_dstate (e : Edge) (s : State) :
    (acceptEdge e s).dstate = s.dstate := by simp [acceptEdge]
@[simp] theorem acceptEdge_drem (e : Edge) (s : State) :
    (acceptEdge e s).drem = s.drem := by simp [acceptEdge]
@[simp] theorem acceptEdge_dpos (e : Edge) (s : State) :
    (acceptEdge e s).dpos = s.dpos := by simp [acceptEdge]
@[simp] theorem acceptEdge_derr (e : Edge) (s : State) :
    (acceptEdge e s).derr = s.derr := by simp [acceptEdge]
@[simp] theorem acceptEdge_derrpos (e : Edge) (s : State) :
    (acceptEdge e s).derrpos = s.derrpos := by simp [acceptEdge]
@[simp] theorem acceptEdge_pending (e : Edge) (s : State) :
    (acceptEdge e s).pending = (responseEdge e s).pending := rfl
@[simp] theorem acceptEdge_sawReset (e : Edge) (s : State) :
    (acceptEdge e s).sawReset = s.sawReset := by simp [acceptEdge]
@[simp] theorem acceptEdge_offer (e : Edge) (s : State) :
    (acceptEdge e s).offer = .none := by simp [acceptEdge]
@[simp] theorem acceptEdge_inputs (e : Edge) (s : State) :
    (acceptEdge e s).inputs = s.inputs.tail := by simp [acceptEdge]
@[simp] theorem acceptEdge_accepted (e : Edge) (s : State) :
    (acceptEdge e s).accepted = s.accepted ++ [e.cmdWord] := by simp [acceptEdge]
@[simp] theorem acceptEdge_taken (e : Edge) (s : State) :
    (acceptEdge e s).taken = (responseEdge e s).taken := rfl
@[simp] theorem acceptEdge_stall (e : Edge) (s : State) :
    (acceptEdge e s).stall = if s.stall = 0 then Config.stallEdges s.edgeCount else s.stall - 1 := by simp [acceptEdge]
@[simp] theorem acceptEdge_edgeCount (e : Edge) (s : State) :
    (acceptEdge e s).edgeCount = s.edgeCount + 1 := by simp [acceptEdge]
@[simp] theorem waitEdge_dstate (e : Edge) (s : State) :
    (waitEdge e s).dstate = s.dstate := by simp [waitEdge]
@[simp] theorem waitEdge_drem (e : Edge) (s : State) :
    (waitEdge e s).drem = s.drem := by simp [waitEdge]
@[simp] theorem waitEdge_dpos (e : Edge) (s : State) :
    (waitEdge e s).dpos = s.dpos := by simp [waitEdge]
@[simp] theorem waitEdge_derr (e : Edge) (s : State) :
    (waitEdge e s).derr = s.derr := by simp [waitEdge]
@[simp] theorem waitEdge_derrpos (e : Edge) (s : State) :
    (waitEdge e s).derrpos = s.derrpos := by simp [waitEdge]
@[simp] theorem waitEdge_pending (e : Edge) (s : State) :
    (waitEdge e s).pending = (responseEdge e s).pending := rfl
@[simp] theorem waitEdge_sawReset (e : Edge) (s : State) :
    (waitEdge e s).sawReset = s.sawReset := by simp [waitEdge]
@[simp] theorem waitEdge_offer (e : Edge) (s : State) :
    (waitEdge e s).offer = if e.cmdValid then some e.cmdWord else none := by simp [waitEdge]
@[simp] theorem waitEdge_inputs (e : Edge) (s : State) :
    (waitEdge e s).inputs = s.inputs.tail := by simp [waitEdge]
@[simp] theorem waitEdge_accepted (e : Edge) (s : State) :
    (waitEdge e s).accepted = s.accepted := by simp [waitEdge]
@[simp] theorem waitEdge_taken (e : Edge) (s : State) :
    (waitEdge e s).taken = (responseEdge e s).taken := rfl
@[simp] theorem waitEdge_stall (e : Edge) (s : State) :
    (waitEdge e s).stall = if s.stall = 0 then Config.stallEdges s.edgeCount else s.stall - 1 := by simp [waitEdge]
@[simp] theorem waitEdge_edgeCount (e : Edge) (s : State) :
    (waitEdge e s).edgeCount = s.edgeCount + 1 := by simp [waitEdge]

end Sys2Proof.Machine
end

