-- ==== Sys2Proof/Laws/Ops.lean ====
section
/-! SUPPORT. What the shared operations do: response words, status registers, codes, the padding validator and the
decoder's commands by case. -/

namespace Sys2Proof.Machine

/-! Response words (R63). -/

@[simp] theorem rspStatus_packRsp (st : Status) (n : BitVec 3) (l : Bool) (d : Word) :
    rspStatus (packRsp st n l d) = st.code := by
  apply BitVec.eq_of_toNat_eq
  rw [rspStatus, packRsp, toNat_extract, toNat_cat_4_3_1_32]
  omega

@[simp] theorem rspCount_packRsp (st : Status) (n : BitVec 3) (l : Bool) (d : Word) :
    rspCount (packRsp st n l d) = n := by
  apply BitVec.eq_of_toNat_eq
  rw [rspCount, packRsp, toNat_extract, toNat_cat_4_3_1_32]
  omega

@[simp] theorem rspData_packRsp (st : Status) (n : BitVec 3) (l : Bool) (d : Word) :
    rspData (packRsp st n l d) = d := by
  apply BitVec.eq_of_toNat_eq
  rw [rspData, packRsp, toNat_extract, toNat_cat_4_3_1_32]
  omega

@[simp] theorem rspLast_packRsp (st : Status) (n : BitVec 3) (l : Bool) (d : Word) :
    rspLast (packRsp st n l d) = l := by
  rw [rspLast, packRsp, BitVec.getLsbD, toNat_cat_4_3_1_32, Nat.testBit_eq_decide_div_mod_eq]
  cases l <;> simp <;> omega

/-- An answer of the shared operation is an answer of the claims' form. -/
theorem respond_eq_answering (st : Status) (n : BitVec 3) (l : Bool) (d : Word) (s : State) :
    respond st n l d s = answering s (packRsp st n l d) := rfl

/-! Codes (R38, R41, R64). -/

@[simp] theorem DState.ofCode_code (d : DState) : DState.ofCode d.code = d := by cases d <;> decide
@[simp] theorem DErr.ofCode_code (e : DErr) : DErr.ofCode e.code = e := by cases e <;> decide
theorem DErr.status_code (e : DErr) : e.status.code = (0#2 ++ e.code : BitVec 4) := by cases e <;> decide

/-! Status registers (R43). -/

theorem statusReg_isSome_iff (regno : Byte) (s : State) :
    (statusReg regno s).isSome = regnoImplemented regno := by
  have h : ∀ r : Byte, regnoImplemented r = decide (r = 0 ∨ r = 1 ∨ r = 2 ∨ r = 3) := by decide
  rw [h]; unfold statusReg; split_ifs <;> simp_all

/-! The padding validator, pattern by pattern of the table of R88. -/

/-- What each verdict says of the four classes. -/
theorem validate_cases (fin : Bool) (c0 c1 c2 c3 : SymClass) :
    (∃ j, validate fin c0 c1 c2 c3 = .unexpected j ∧ j < 4) ∨
    (validate fin c0 c1 c2 c3 = .badPadding ∧ fin = true ∧ c0 = .data ∧ c1 = .data ∧ c2 = .pad ∧ c3 = .data) ∨
    (validate fin c0 c1 c2 c3 = .accepted 0 ∧ c0 = .data ∧ c1 = .data ∧ c2 = .data ∧ c3 = .data) ∨
    (validate fin c0 c1 c2 c3 = .accepted 1 ∧ fin = true ∧ c0 = .data ∧ c1 = .data ∧ c2 = .data ∧ c3 = .pad) ∨
    (validate fin c0 c1 c2 c3 = .accepted 2 ∧ fin = true ∧ c0 = .data ∧ c1 = .data ∧ c2 = .pad ∧ c3 = .pad) := by
  cases fin <;> cases c0 <;> cases c1 <;> cases c2 <;> cases c3 <;>
    simp [validate, unexpectedAt, padCount]

/-- A position the validator reports has a cause of check 1, and no position below it has one (R91, R103). -/
theorem validate_unexpected {fin : Bool} {c0 c1 c2 c3 : SymClass} {j : Nat}
    (h : validate fin c0 c1 c2 c3 = .unexpected j) :
    j < 4 ∧ unexpectedAt fin j ([c0, c1, c2, c3].getD j .data) = true ∧
      ∀ k, k < j → unexpectedAt fin k ([c0, c1, c2, c3].getD k .data) = false := by
  unfold validate at h
  split_ifs at h with h0 h1 h2 h3 <;> cases h
  · exact ⟨by omega, h0, by omega⟩
  · exact ⟨by omega, h1, fun k hk => by interval_cases k; simp [h0]⟩
  · exact ⟨by omega, h2, fun k hk => by interval_cases k <;> simp [h0, h1]⟩
  · exact ⟨by omega, h3, fun k hk => by interval_cases k <;> simp [h0, h1, h2]⟩

/-- Only one octet is a padding symbol (R35). -/
theorem inv_class_pad_iff : ∀ s : Byte, (inv s).1 = .pad ↔ s = 0x3D := by decide

/-- Check 1 on an octet, in the words of R103. -/
theorem unexpectedAt_inv_iff (s : Byte) (fin : Bool) (k : Nat) :
    unexpectedAt fin k (inv s).1 = true ↔ (inv s).1 = .invalid ∨ (s = 0x3D ∧ (fin = false ∨ k < 2)) := by
  rw [← inv_class_pad_iff]
  simp [unexpectedAt]

/-! The decoder's commands by case (R85, R86). -/

theorem execDstart_cases (len : Word) (s : State) :
    (len.toNat % 4 ≠ 0 ∧
      execDstart len s = .next (raiseDecodeError .invalidLength 0 { s with dpos := 0, drem := 0 })) ∨
    (len = 0 ∧ execDstart len s = .next (respond .ok 0 true 0
      { s with dpos := 0, drem := 0, derr := .none, derrpos := 0, dstate := .done })) ∨
    (len.toNat % 4 = 0 ∧ len ≠ 0 ∧ execDstart len s = .next (respond .ok 0 false 0
      { s with dpos := 0, drem := len >>> 2, derr := .none, derrpos := 0, dstate := .active })) := by
  unfold execDstart
  split_ifs with h1 h2
  · exact .inl ⟨h1, rfl⟩
  · exact .inr (.inl ⟨h2, rfl⟩)
  · exact .inr (.inr ⟨not_not.mp h1, h2, rfl⟩)

/-- Everything a `DGRP` can do. -/
theorem execDgrp_cases (s0 s1 s2 s3 : Byte) (s : State) :
    (s.dstate ≠ .active ∧ execDgrp s0 s1 s2 s3 s = .next (raiseNoStream s)) ∨
    (s.dstate = .active ∧ ∃ j, j < 4 ∧
      validate (decide (s.drem = 1)) (inv s0).1 (inv s1).1 (inv s2).1 (inv s3).1 = .unexpected j ∧
      execDgrp s0 s1 s2 s3 s =
        .next (raiseDecodeError .unexpectedCharacter (s.dpos + BitVec.ofNat 32 j) s)) ∨
    (s.dstate = .active ∧ s.drem = 1 ∧
      validate true (inv s0).1 (inv s1).1 (inv s2).1 (inv s3).1 = .badPadding ∧
      execDgrp s0 s1 s2 s3 s = .next (raiseDecodeError .invalidPadding 0 s)) ∨
    (s.dstate = .active ∧ ∃ npad, npad < 3 ∧ (s.drem ≠ 1 → npad = 0) ∧
      validate (decide (s.drem = 1)) (inv s0).1 (inv s1).1 (inv s2).1 (inv s3).1 = .accepted npad ∧
      execDgrp s0 s1 s2 s3 s = .next (acceptGroup (decide (s.drem = 1)) npad
        (inv s0).2 (inv s1).2 (inv s2).2 (inv s3).2 s)) := by
  by_cases ha : s.dstate = .active
  swap
  · exact .inl ⟨ha, by simp [execDgrp, ha]⟩
  rcases validate_cases (decide (s.drem = 1)) (inv s0).1 (inv s1).1 (inv s2).1 (inv s3).1 with
    ⟨j, hv, hj⟩ | ⟨hv, hf, -⟩ | ⟨hv, -⟩ | ⟨hv, hf, -⟩ | ⟨hv, hf, -⟩
  · exact .inr (.inl ⟨ha, j, hj, hv, by rw [execDgrp, if_neg (not_not.2 ha)]; simp only [hv]⟩)
  · have hd : s.drem = 1 := by simpa using hf
    have hv' := hv
    rw [hf] at hv
    exact .inr (.inr (.inl ⟨ha, hd, hv, by rw [execDgrp, if_neg (not_not.2 ha)]; simp only [hv']⟩))
  · exact .inr (.inr (.inr ⟨ha, 0, by omega, fun _ => rfl, hv, by rw [execDgrp, if_neg (not_not.2 ha)]; simp only [hv]⟩))
  · exact .inr (.inr (.inr ⟨ha, 1, by omega, fun h => absurd (by simpa using hf) h, hv,
      by rw [execDgrp, if_neg (not_not.2 ha)]; simp only [hv]⟩))
  · exact .inr (.inr (.inr ⟨ha, 2, by omega, fun h => absurd (by simpa using hf) h, hv,
      by rw [execDgrp, if_neg (not_not.2 ha)]; simp only [hv]⟩))

end Sys2Proof.Machine
end

