-- ==== Sys2Proof/Laws/Channel.lean ====
section
/-! SUPPORT. What the ports and one step do. -/

namespace Sys2Proof.Machine

theorem hasRoom_eq (ps : List Pending) (n : Nat) : hasRoom ps n = decide (ps.length ≤ n) := by
  induction ps generalizing n with
  | nil => simp [hasRoom]
  | cons p ps ih => cases n <;> simp [hasRoom, ih]

@[simp] theorem Pending.age_rsp (p : Pending) : p.age.rsp = p.rsp := rfl
@[simp] theorem Pending.age_wait (p : Pending) : p.age.wait = p.wait - 1 := rfl

@[simp] theorem map_rsp_age (ps : List Pending) :
    (ps.map Pending.age).map Pending.rsp = ps.map Pending.rsp := by simp [Function.comp_def]

/-- `cmd_ready` after a reset, with `rst_n = 1` (R60). -/
theorem cmdReady_iff (s : State) (h : s.sawReset = true) :
    cmdReady s true = true ↔ s.stall = 0 ∧ s.pending.length < Config.cmdDepth := by
  simp [cmdReady, h, hasRoom_eq, Config.cmdDepth]

/-- `rsp_valid` after a reset, with `rst_n = 1` (R60). -/
theorem rspValid_iff (s : State) (h : s.sawReset = true) :
    rspValid s true = true ↔ ∃ p ps, s.pending = p :: ps ∧ p.wait = 0 := by
  simp only [rspValid, h, if_true, Bool.true_and]
  cases s.pending <;> simp [headOffered]

/-- The response channel at an edge after a reset: a response is taken or none is. -/
theorem responseEdge_cases (e : Edge) (s : State) (h : s.sawReset = true) (hr : e.rstN = true) :
    (∃ p ps, s.pending = p :: ps ∧ p.wait = 0 ∧ e.rspReady = true ∧
      (responseEdge e s).pending = ps.map Pending.age ∧ (responseEdge e s).taken = s.taken ++ [p.rsp]) ∨
    ((rspValid s true && e.rspReady) = false ∧
      (responseEdge e s).pending = s.pending.map Pending.age ∧ (responseEdge e s).taken = s.taken) := by
  by_cases hv : (rspValid s true && e.rspReady) = true
  · have hv' := hv
    simp only [Bool.and_eq_true] at hv
    obtain ⟨p, ps, hp, hw⟩ := (rspValid_iff s h).1 hv.1
    refine .inl ⟨p, ps, hp, hw, hv.2, ?_, ?_⟩ <;>
      simp [responseEdge, hr, hv, takeResponse, hp]
  · have hv' : (rspValid s true && e.rspReady) = false := by simpa using hv
    refine .inr ⟨hv', ?_, ?_⟩ <;> simp [responseEdge, hr, hv']

/-- Either way nothing is lost: what was taken and what waits, in order, stay the same. -/
theorem responseEdge_answers (e : Edge) (s : State) (h : s.sawReset = true) (hr : e.rstN = true) :
    (responseEdge e s).taken ++ (responseEdge e s).pending.map Pending.rsp =
      s.taken ++ s.pending.map Pending.rsp := by
  rcases responseEdge_cases e s h hr with ⟨p, ps, hp, -, -, h1, h2⟩ | ⟨-, h1, h2⟩ <;>
    rw [h1, h2, map_rsp_age]
  simp [hp]

/-- A word is run as the command it decodes to, or answered `IllegalCommand` (R66). -/
theorem runWord_cases (w : CmdWord) (s : State) :
    (∃ i, decode w = .ok i ∧ runWord w s = exec i s) ∨
    (∃ r, decode w = .error r ∧ runWord w s = .next (raiseIllegalCommand s)) := by
  unfold runWord
  cases h : decode w with
  | ok i => exact .inl ⟨i, rfl, rfl⟩
  | error r => exact .inr ⟨r, rfl, rfl⟩

/-- Everything a step that answers a next state can have done. -/
theorem step_cases {s t : State} (h : step s = .next t) :
    ((drivenEdge s).rstN = false ∧ t = resetEdge s) ∨
    ((drivenEdge s).rstN = true ∧ s.sawReset = false ∧ (drivenEdge s).cmdValid = false ∧
      t = unresetEdge s) ∨
    ((drivenEdge s).rstN = true ∧ s.sawReset = true ∧ breaksOffer s (drivenEdge s) = false ∧
      accepts s (drivenEdge s) = true ∧
      runWord (drivenEdge s).cmdWord (acceptEdge (drivenEdge s) s) = .next t) ∨
    ((drivenEdge s).rstN = true ∧ s.sawReset = true ∧ breaksOffer s (drivenEdge s) = false ∧
      accepts s (drivenEdge s) = false ∧ t = waitEdge (drivenEdge s) s) := by
  unfold step atEdge at h
  generalize drivenEdge s = e at *
  by_cases h1 : e.rstN = true
  swap
  · simp only [h1] at h
    simp only [Bool.not_false, if_true, Host.Outcome.next.injEq] at h
    exact .inl ⟨by simpa using h1, h.symm⟩
  simp only [h1, Bool.not_true, Bool.false_eq_true, if_false] at h
  by_cases h2 : s.sawReset = true
  swap
  · simp only [h2, Bool.not_false, if_true] at h
    split at h
    · cases h
    · rename_i h3
      simp only [Host.Outcome.next.injEq] at h
      exact .inr (.inl ⟨h1, by simpa using h2, by simpa using h3, h.symm⟩)
  simp only [h2, Bool.not_true, Bool.false_eq_true, if_false] at h
  split at h
  · cases h
  rename_i h3
  split at h
  · rename_i h4
    exact .inr (.inr (.inl ⟨h1, h2, by simpa using h3, h4, h⟩))
  · rename_i h4
    simp only [Host.Outcome.next.injEq] at h
    exact .inr (.inr (.inr ⟨h1, h2, by simpa using h3, by simpa using h4, h.symm⟩))

theorem runWords_append (ws vs : List CmdWord) (s t : State) (h : runWords ws s = .next t) :
    runWords (ws ++ vs) s = runWords vs t := by
  induction ws generalizing s with
  | nil => simp only [runWords, Host.Outcome.next.injEq] at h; simp [h]
  | cons w ws ih =>
    simp only [runWords, List.cons_append] at h ⊢
    cases hw : runWord w s with
    | next u => rw [hw] at h; simpa using ih u h
    | fault f => rw [hw] at h; cases h
    | refused r => rw [hw] at h; cases h

end Sys2Proof.Machine
end

