-- ==== Sys2Proof/Laws/PerInstr.lean ====
section
/-! SUPPORT. Facts of every command as syntax, one lemma per constructor. -/

/-- The fields the encoder writes: the opcode of the command, a reserved field of 0 and the operand field (R61). -/
def Sys2Proof.Laws.EncodeFields.Statement (i : Sys2Proof.Instr) : Prop :=
  Sys2Proof.cmdOp (Sys2Proof.encode i) = Sys2Proof.opcodeOf i ∧
  Sys2Proof.cmdRsv (Sys2Proof.encode i) = 0 ∧
  Sys2Proof.cmdData (Sys2Proof.encode i) = Sys2Proof.dataOf i

namespace Sys2Proof.Laws

/-- The three fields of a word put together from them. -/
theorem fields_of_concat (op : Byte) (rsv : BitVec 24) (d : Word) :
    cmdOp (op ++ rsv ++ d : BitVec 64) = op ∧ cmdRsv (op ++ rsv ++ d : BitVec 64) = rsv ∧
      cmdData (op ++ rsv ++ d : BitVec 64) = d := by
  refine ⟨?_, ?_, ?_⟩ <;> apply BitVec.eq_of_toNat_eq
  · rw [cmdOp, toNat_extract, toNat_cat_8_24_32]; omega
  · rw [cmdRsv, toNat_extract, toNat_cat_8_24_32]; omega
  · rw [cmdData, toNat_extract, toNat_cat_8_24_32]; omega

theorem EncodeFields.enc3 (a b c : Byte) : EncodeFields.Statement (.enc3 a b c) := fields_of_concat _ _ _
theorem EncodeFields.enc2 (a b : Byte) : EncodeFields.Statement (.enc2 a b) := fields_of_concat _ _ _
theorem EncodeFields.enc1 (a : Byte) : EncodeFields.Statement (.enc1 a) := fields_of_concat _ _ _
theorem EncodeFields.enc0 : EncodeFields.Statement .enc0 := fields_of_concat _ _ _
theorem EncodeFields.dstart (len : Word) : EncodeFields.Statement (.dstart len) := fields_of_concat _ _ _
theorem EncodeFields.dgrp (s0 s1 s2 s3 : Byte) : EncodeFields.Statement (.dgrp s0 s1 s2 s3) :=
  fields_of_concat _ _ _
theorem EncodeFields.lutf (idx : Index) : EncodeFields.Statement (.lutf idx) := fields_of_concat _ _ _
theorem EncodeFields.luti (sym : Byte) : EncodeFields.Statement (.luti sym) := fields_of_concat _ _ _
theorem EncodeFields.drd (regno : Byte) : EncodeFields.Statement (.drd regno) := fields_of_concat _ _ _

end Sys2Proof.Laws
end

