-- ==== Sys2Proof/Tests/Slice0.lean ====
section
/-! SUPPORT. Tests, each expected result from the spec (95_test_vectors.md gives the vector's id, other files the rule),
and a witness for the hypotheses of each statement that has some. -/

namespace Sys2Proof.Tests

open Sys2Proof.Machine

/-- The registers of a stream: `ACTIVE` with this `DREM` and `DPOS`. -/
def streaming (drem dpos : Word) : State := { State.reset with dstate := .active, drem := drem, dpos := dpos }

/-- The newest response after one step that accepts `w`. -/
def answerOf (w : Nat) (s : State) : Option RspWord :=
  match step (s.withFetchWord 64 w) with
  | .next t => t.pending.getLast?.map Pending.rsp
  | .fault _ => none
  | .refused _ => none

/-- `DSTATE, DREM, DPOS, DERR, DERRPOS` after one step that accepts `w`, as the tables of 95_test_vectors.md list
them. -/
def registersOf (w : Nat) (s : State) : Option (DState × Word × Word × DErr × Word) :=
  match step (s.withFetchWord 64 w) with
  | .next t => some (t.dstate, t.drem, t.dpos, t.derr, t.derrpos)
  | .fault _ => none
  | .refused _ => none

/-! ## Well-formedness: the one check refuses what it must (R43, R69) -/

theorem smoke_wf_refuses_register_4 : (Instr.drd 4).wf = false := by decide
theorem smoke_wf_refuses_register_255 : (Instr.drd 255).wf = false := by decide
theorem smoke_wf_admits_register_3 : (Instr.drd 3).wf = true := by decide

/-! ## Decoding: `OP ++ RSV ++ DATA` written out by its fields (R61, R62, R65) -/

theorem test_decode_enc3 : decode 0x13000000AB616263 = .ok (.enc3 0x61 0x62 0x63) := by decide
theorem test_decode_enc2 : decode 0x12000000006465FF = .ok (.enc2 0x64 0x65) := by decide
theorem test_decode_enc1 : decode 0x110000000064FFFF = .ok (.enc1 0x64) := by decide
theorem test_decode_enc0 : decode 0x10000000DEADBEEF = .ok .enc0 := by decide
theorem test_decode_dstart : decode 0x20000000FFFFFFFC = .ok (.dstart 0xFFFFFFFC) := by decide
theorem test_decode_dgrp : decode 0x210000005A47553D = .ok (.dgrp 0x5A 0x47 0x55 0x3D) := by decide
theorem test_decode_lutf : decode 0x30000000FFFFFFE3 = .ok (.lutf 35) := by decide
theorem test_decode_luti : decode 0x3100000012345641 = .ok (.luti 0x41) := by decide
theorem test_decode_drd : decode 0x4000000000000100 = .ok (.drd 0) := by decide
theorem test_decode_rejects_opcodes : [0x0000000000000000#64, 0xFFFFFFFFFFFFFFFF#64, 0x1400000000000000#64,
    0x2200000059574A6A#64, 0x4100000000000000#64].all
      (fun w => decide (decode w = .error .reservedOpcode)) = true := by decide  -- I1 to I4, I9
theorem test_decode_rejects_reserved_field : decode 0x1300000100616263 = .error .reservedField ∧
    decode 0x2000800000000008 = .error .reservedField := by decide  -- I5, I6
theorem test_decode_rejects_register : decode 0x4000000000000004 = .error .reservedRegister ∧
    decode 0x40000000000000FF = .error .reservedRegister := by decide  -- I7, I8
theorem test_table_word : decodeTableWord 64 0x2000000000000008 = some (.dstart 8) := by decide

/-! ## Commands, one step each -/

theorem test_enc3_lanes : answerOf 0x130000000014FB9C State.reset = some 0x0846507563 := by decide  -- E7
theorem test_enc3_all_ones : answerOf 0x1300000000FFFFFF State.reset = some 0x082F2F2F2F := by decide  -- E2
theorem test_enc2 : answerOf 0x1200000000FFFF00 State.reset = some 0x082F2F383D := by decide  -- E10
theorem test_enc2_ignored : answerOf 0x12000000006465FF State.reset = some 0x085A47553D := by decide  -- E9
theorem test_enc1 : answerOf 0x1100000000FF0000 State.reset = some 0x082F773D3D := by decide  -- E14
theorem test_enc1_ignored : answerOf 0x110000000064FFFF State.reset = some 0x085A413D3D := by decide  -- E16
theorem test_enc0 : answerOf 0x10000000DEADBEEF State.reset = some 0x0000000000 := by decide  -- E19
theorem test_dstart_largest : registersOf 0x20000000FFFFFFFC State.reset =
    some (.active, 0x3FFFFFFF, 0, .none, 0) := by decide  -- V27
theorem test_dstart_bad_length : answerOf 0x2000000000000005 (streaming 2 4) = some 0x1000000000 ∧
    registersOf 0x2000000000000005 (streaming 2 4) = some (.error, 0, 0, .invalidLength, 0) := by decide  -- 1.8
theorem test_dgrp_last_group : answerOf 0x210000005A47553D (streaming 1 4) = some 0x0500646500 ∧
    registersOf 0x210000005A47553D (streaming 1 4) = some (.done, 0, 8, .none, 0) := by decide  -- P2
theorem test_dgrp_position : answerOf 0x210000005A21553D (streaming 1 4) = some 0x2000000005 ∧
    registersOf 0x210000005A21553D (streaming 1 4) = some (.error, 1, 4, .unexpectedCharacter, 5) := by decide  -- V21
theorem test_lutf : answerOf 0x30000000FFFFFFE3 State.reset = some 0x000000006A := by decide  -- L7
theorem test_luti_pad : answerOf 0x310000000000003D State.reset = some 0x0000000040 := by decide  -- L12
theorem test_luti_invalid : answerOf 0x3100000000000080 State.reset = some 0x0000000080 := by decide  -- L14
theorem test_drd_dstat : answerOf 0x4000000000000000
    { State.reset with dstate := .error, derr := .unexpectedCharacter, derrpos := 5 } = some 0x000000000B := by
  decide  -- S2
theorem test_drd_drem : answerOf 0x4000000000000003 (streaming 2 0) = some 0x0000000002 := by decide  -- R95
theorem test_illegal_keeps_stream : answerOf 0x2200000059574A6A (streaming 2 0) = some 0x5000000000 ∧
    registersOf 0x2200000059574A6A (streaming 2 0) = some (.active, 2, 0, .none, 0) := by decide  -- I4

/-! ## The host's sequences and the assembler -/

theorem test_host_encode : (hostEncode [0x61, 0x62, 0x63, 0x64] State.reset).map Prod.fst =
    some [0x59, 0x57, 0x4A, 0x6A, 0x5A, 0x41, 0x3D, 0x3D] := by decide  -- 1.3
theorem test_host_decode : (hostDecode [0x59, 0x57, 0x4A, 0x6A, 0x5A, 0x47, 0x55, 0x3D] State.reset).map Prod.fst =
    some (.bytes [0x61, 0x62, 0x63, 0x64, 0x65]) := by decide  -- 1.6
theorem test_host_decode_priority : (hostDecode [0x59, 0x57, 0x3D, 0x21] State.reset).map Prod.fst =
    some (.unexpectedCharacter 3) := by decide  -- V13
theorem test_assemble_characters : assemble ['E', 'N', 'C', '3', ' ', '\'', 'a', '\'', ',', ' ', '\'', 'b', '\'', ',',
    ' ', '\'', 'c', '\''] = some 0x1300000000616263 := by decide  -- R69
theorem test_assemble_group : assemble ['d', 'g', 'r', 'p', ' ', '"', 'Y', 'W', 'J', 'j', '"'] =
    some 0x2100000059574A6A := by decide  -- R69
theorem test_assemble_register : assemble ['D', 'R', 'D', ' ', 'D', 'R', 'E', 'M'] =
    some 0x4000000000000003 := by decide  -- R69
theorem test_disassemble_rejected : disassemble 0xFFFFFFFFFFFFFFFF =
    ['.', 'w', 'o', 'r', 'd', '6', '4', ' ', '0', 'x', 'F', 'F', 'F', 'F', 'F', 'F', 'F', 'F', 'F', 'F', 'F', 'F', 'F',
      'F', 'F', 'F'] := by decide  -- R69

/-! ## The ports -/

theorem test_stall_keeps_offer : (match step { State.reset with stall := 1, inputs := [offering 0x1000000000000000] } with
    | .next t => t.offer
    | _ => none) = some 0x1000000000000000 := by decide  -- R60
theorem test_dropped_offer_refused : step { State.reset with
    offer := some 0x1000000000000000, inputs := [⟨true, false, 0, true⟩] } = .refused .hostBrokeOffer := rfl  -- R117
theorem test_command_before_reset_refused :
    step { State.powerOn with inputs := [offering 0x1000000000000000] } = .refused .commandBeforeReset := rfl  -- R116

/-! ## Witnesses: states and operands that meet the hypotheses of the statements, clause by clause -/

theorem witness_alpha_ranges : (25 : Index).toNat ≤ 25 ∧ 26 ≤ (26 : Index).toNat ∧ (51 : Index).toNat ≤ 51 ∧
    52 ≤ (52 : Index).toNat ∧ (61 : Index).toNat ≤ 61 ∧ (62 : Index).toNat = 62 ∧ (63 : Index).toNat = 63 := by decide
theorem witness_inv_ranges : (0x41 ≤ (0x41 : Byte).toNat ∧ (0x5A : Byte).toNat ≤ 0x5A) ∧
    (0x61 ≤ (0x61 : Byte).toNat ∧ (0x7A : Byte).toNat ≤ 0x7A) ∧ (0x30 ≤ (0x30 : Byte).toNat ∧ (0x39 : Byte).toNat ≤ 0x39) ∧
    (0x2A : Byte).toNat ≤ 0x2A ∧ 0x2C ≤ (0x2C : Byte).toNat ∧ 0x3A ≤ (0x3A : Byte).toNat ∧ 0x3E ≤ (0x3E : Byte).toNat ∧
    0x5B ≤ (0x5B : Byte).toNat ∧ 0x7B ≤ (0x7B : Byte).toNat := by decide
theorem witness_inv_data : inv 0x6A = (.data, 35) := by decide
theorem witness_illegal_words : 0x00 ∉ [0x10, 0x11, 0x12, 0x13, 0x20, 0x21, 0x30, 0x31, 0x40] ∧
    (0x1300000100616263#64).toNat / 2 ^ 32 % 2 ^ 24 ≠ 0 ∧
    ((0x4000000000000004#64).toNat / 2 ^ 56 = 0x40 ∧ (0x4000000000000004#64).toNat % 2 ^ 8 > 3) := by decide
theorem witness_legal_word : ¬ ((0x4000000000000003#64).toNat / 2 ^ 56 ∉
      [0x10, 0x11, 0x12, 0x13, 0x20, 0x21, 0x30, 0x31, 0x40] ∨ (0x4000000000000003#64).toNat / 2 ^ 32 % 2 ^ 24 ≠ 0 ∨
      ((0x4000000000000003#64).toNat / 2 ^ 56 = 0x40 ∧ (0x4000000000000003#64).toNat % 2 ^ 8 > 3)) := by decide
theorem witness_ignored_bits : decode 0x12000000AA6465FF = .ok (.enc2 0x64 0x65) ∧
    0x12000000AA6465FF &&& (0xFFFFFFFF#32 ++ operandBits (.enc2 0x64 0x65) : BitVec 64) =
      0x1200000000646500 &&& (0xFFFFFFFF#32 ++ operandBits (.enc2 0x64 0x65) : BitVec 64) := by decide
/-- I7, I8 and a word with its highest bit of `RSV` set: words of `DRD`'s opcode that R66 rejects. -/
theorem witness_rejected_drd_words : (0x4000000000000004#64).toNat / 2 ^ 56 = 0x40 ∧
    3 < (0x4000000000000004#64).toNat % 2 ^ 8 ∧ (0x40000000000000FF#64).toNat / 2 ^ 56 = 0x40 ∧
    3 < (0x40000000000000FF#64).toNat % 2 ^ 8 ∧ (0x4080000000000000#64).toNat / 2 ^ 56 = 0x40 ∧
    (0x4080000000000000#64).toNat / 2 ^ 32 % 2 ^ 24 ≠ 0 := by decide
theorem witness_unimplemented_register : 3 < (4 : Byte).toNat ∧ 3 < (255 : Byte).toNat := by decide
theorem witness_encoder_forms : (Instr.enc3 1 2 3 = .enc0 ∨ (∃ a, Instr.enc3 1 2 3 = .enc1 a) ∨
    (∃ a b, Instr.enc3 1 2 3 = .enc2 a b) ∨ ∃ a b c, Instr.enc3 1 2 3 = .enc3 a b c) :=
  .inr (.inr (.inr ⟨1, 2, 3, rfl⟩))
theorem witness_dstart_clauses : (0xFFFFFFFF : Word).toNat % 4 ≠ 0 ∧ (0xFFFFFFFC : Word).toNat % 4 = 0 ∧
    (0xFFFFFFFC : Word) ≠ 0 ∧ (4 : Word).toNat % 4 = 0 ∧ (4 : Word) ≠ 0 := by decide
theorem witness_no_stream : State.reset.dstate ≠ .active := by decide
theorem witness_response_status_clauses : rspStatus 0x1000000000 = 1 ∧ rspStatus 0x2000000005 = 2 ∧
    rspStatus 0x3000000000 = 3 ∧ rspStatus 0x4000000000 = 4 ∧ rspStatus 0x5000000000 = 5 ∧ rspStatus 0x0859574A6A = 0 := by
  decide

/-- An invalid octet in the last position, a pad before the final group, a pad in position 1 of the final group: causes
(a), (b) and (c) of R103, each the lowest of its group. -/
theorem witness_unexpected_causes : (streaming 1 0).dstate = .active ∧ (inv 0x21).1 = .invalid ∧
    (∀ s : Byte, s ∈ [0x59, 0x57] → (inv s).1 ≠ .invalid ∧ s ≠ 0x3D) ∧ (streaming 2 0).drem ≠ 1 ∧
    ((0x3D : Byte) = 0x3D ∧ (streaming 1 0).drem = 1 ∧ 1 < 2) := by decide
theorem witness_data_group : (streaming 1 0).dstate = .active ∧ (streaming 1 0).drem = 1 ∧ (streaming 2 0).drem ≠ 1 ∧
    (inv 0x41).1 = .data ∧ (inv 0x2F).1 = .data := by decide
theorem witness_only_stream_commands : (∃ t, runWord 0x5A00000000000000 State.reset = .next t) ∧
    (∀ i, decode 0x5A00000000000000 = .ok i → writesRegisters i = false) ∧
    (∃ t, runWord 0x1000000000000000 State.reset = .next t) ∧
    (∀ i, decode 0x1000000000000000 = .ok i → writesRegisters i = false) := by
  refine ⟨⟨_, rfl⟩, fun i h => ?_, ⟨_, rfl⟩, fun i h => ?_⟩ <;> cases h; rfl

/-- A reset edge is next. -/
def resetting : State := { streaming 2 0 with inputs := [⟨false, false, 0, false⟩] }

theorem witness_reset_edge : (drivenEdge resetting).rstN = false ∧ resetting.sawReset = true := by decide
theorem witness_accepted_command :
    let s := State.reset.withFetchWord 64 0x1300000000616263
    s.sawReset = true ∧ breaksOffer s (drivenEdge s) = false ∧ accepts s (drivenEdge s) = true ∧
      decode (drivenEdge s).cmdWord = .ok (.enc3 0x61 0x62 0x63) := by decide
theorem witness_accepted_illegal_word :
    let s := State.reset.withFetchWord 64 0xFFFFFFFFFFFFFFFF
    s.sawReset = true ∧ breaksOffer s (drivenEdge s) = false ∧ accepts s (drivenEdge s) = true ∧
      decode (drivenEdge s).cmdWord = .error .reservedOpcode := by decide
theorem witness_command_waits :
    let s := { State.reset with stall := 1, inputs := [offering 0x1000000000000000] }
    s.sawReset = true ∧ (drivenEdge s).rstN = true ∧ (drivenEdge s).cmdValid = true ∧
      breaksOffer s (drivenEdge s) = false ∧ cmdReady s true = false := by decide

/-- As many responses wait as the block may hold. -/
def full : State := { State.reset with pending := List.replicate Config.cmdDepth ⟨0, 0⟩ }

theorem witness_depth_reached : full.sawReset = true ∧ Config.cmdDepth ≤ full.pending.length :=
  ⟨rfl, by simp [full]⟩
theorem witness_below_depth : State.reset.pending.length < Config.cmdDepth ∧ State.reset.stall = 0 :=
  ⟨by simp [State.reset, Config.cmdDepth], rfl⟩

/-- A response is offered, and the host is ready for it or not. -/
def offered (ready : Bool) : State := { State.reset with
  pending := [⟨0x0859574A6A, 0⟩], inputs := [⟨true, false, 0, ready⟩] }

theorem witness_offered_response : (offered false).sawReset = true ∧ (drivenEdge (offered false)).rstN = true ∧
    (drivenEdge (offered false)).rspReady = false ∧ rspValid (offered false) true = true ∧
    ∃ t, step (offered false) = .next t := ⟨by decide, by decide, by decide, by decide, ⟨_, rfl⟩⟩
theorem witness_taken_response : rspValid (offered true) true = true ∧ (drivenEdge (offered true)).rspReady = true ∧
    ∃ t, step (offered true) = .next t := ⟨by decide, by decide, ⟨_, rfl⟩⟩
theorem witness_host_breach :
    let s := { State.reset with offer := some 0x10, inputs := [⟨true, true, 0x11, true⟩] }
    (drivenEdge s).rstN = true ∧ s.sawReset = true ∧ s.offer = some 0x10 ∧
      ¬ ((drivenEdge s).cmdValid = true ∧ (drivenEdge s).cmdWord = 0x10) := by decide

/-- In `ERROR`, with a `DGRP`, a `DSTART` or a reset edge next. -/
def failed (e : Edge) : State :=
  { State.reset with dstate := .error, derr := .invalidLength, inputs := [e] }

theorem witness_error_kept : (failed (offering 0x2100000041414141)).dstate = .error ∧
    (∃ t, step (failed (offering 0x2100000041414141)) = .next t) ∧
    (∃ t, step (failed (offering 0x2000000000000004)) = .next t ∧ t.dstate = .active) ∧
    ∃ t, step (failed ⟨false, false, 0, false⟩) = .next t := ⟨rfl, ⟨_, rfl⟩, ⟨_, rfl, rfl⟩, ⟨_, rfl⟩⟩

/-- In the middle of a stream of 8 octets that a recorded `DSTART 8` has started and whose response waits. -/
def midStream : State := { streaming 2 0 with
  accepted := [0x2000000000000008], pending := [⟨0, 0⟩], inputs := [⟨true, false, 0, false⟩] }

theorem witness_decoder_invariants : DecoderInv midStream ∧ ∃ t, step midStream = .next t ∧ t.sawReset = true := by
  refine ⟨⟨?_, fun _ => ⟨⟨by decide, by decide, 8, by decide, by decide⟩, rfl, rfl⟩, ?_, ?_, ?_, ?_, ?_, ?_, ?_⟩,
    ⟨_, rfl, rfl⟩⟩ <;> simp [midStream, streaming, State.reset]
theorem witness_depth_bound : DepthInv midStream ∧ ∃ t, step midStream = .next t ∧ t.sawReset = true :=
  ⟨by simp [DepthInv, midStream, Config.cmdDepth], ⟨_, rfl, rfl⟩⟩
theorem witness_answers : AnswerInv midStream ∧ ∃ t, step midStream = .next t ∧ t.sawReset = true :=
  ⟨⟨_, rfl, ⟨rfl, rfl, rfl, rfl, rfl⟩, rfl⟩, ⟨_, rfl, rfl⟩⟩
theorem witness_progress : State.reset.inputs = [] ∧ State.reset.offer = none ∧
    ({ State.reset with offer := some 0x1000000000000000 } : State).offer = some 0x1000000000000000 ∧
    ({ State.reset with pending := [⟨0x5000000000, 3⟩] } : State).pending = [⟨0x5000000000, 3⟩] :=
  ⟨rfl, rfl, rfl, rfl⟩
theorem witness_decoded_text : ∃ t, hostDecode [0x59, 0x57, 0x4A, 0x6A] State.reset =
    some (.bytes [0x61, 0x62, 0x63], t) := ⟨_, rfl⟩
theorem witness_unexpected_text : ∃ t, hostDecode [0x59, 0x57, 0x21, 0x6A] State.reset =
    some (.unexpectedCharacter 2, t) := ⟨_, rfl⟩
theorem witness_unexpected_pad_text : ∃ t, hostDecode [0x59, 0x3D, 0x4A, 0x6A] State.reset =
    some (.unexpectedCharacter 1, t) := ⟨_, rfl⟩  -- 1.10: the last position where a pad is a cause
theorem witness_unexpected_after_pad : ∃ t, hostDecode [0x59, 0x57, 0x3D, 0x21] State.reset =
    some (.unexpectedCharacter 3, t) := ⟨_, rfl⟩  -- V13: the first position where a pad is none
theorem witness_buffer_length : 4 * ((([0x61, 0x62] : List Byte).length + 2) / 3) < 2 ^ 32 := by decide

end Sys2Proof.Tests
end

section
/-! The constant tables `ALPHA` and `INV` (10_state.md R34 to R37) by ranges of symbols, read as numbers, and the
statements about them and about the state after reset (R47). -/

namespace Sys2Proof.Machine

/-! `ALPHA` by ranges: the closed form of 10_state.md section 2. Its table is a list of octets, so each range is read
off the list. -/

theorem alpha_toNat_upper : ∀ i : Index, i.toNat ≤ 25 → (alpha i).toNat = 0x41 + i.toNat := by decide

theorem alpha_toNat_lower : ∀ i : Index, 26 ≤ i.toNat ∧ i.toNat ≤ 51 → (alpha i).toNat = 0x61 + (i.toNat - 26) := by
  decide

theorem alpha_toNat_digit : ∀ i : Index, 52 ≤ i.toNat ∧ i.toNat ≤ 61 → (alpha i).toNat = 0x30 + (i.toNat - 52) := by
  decide

@[simp] theorem alpha_62 : alpha 62 = 0x2B := rfl

@[simp] theorem alpha_63 : alpha 63 = 0x2F := rfl

/-- The five ranges of the closed form of `ALPHA` (R34). -/
theorem index_ranges (i : Index) :
    i.toNat ≤ 25 ∨ (26 ≤ i.toNat ∧ i.toNat ≤ 51) ∨ (52 ≤ i.toNat ∧ i.toNat ≤ 61) ∨ i = 62 ∨ i = 63 := by
  bv_omega

/-! `INV` by rows of the table of R35. -/

theorem rangeValue_eq_ofNat (s lo : Byte) (first : Index) (h : lo.toNat ≤ s.toNat) :
    rangeValue s lo first = BitVec.ofNat 6 (s.toNat - lo.toNat + first.toNat) := by
  unfold rangeValue
  bv_omega

theorem inv_upper {s : Byte} (h : 0x41 ≤ s.toNat ∧ s.toNat ≤ 0x5A) :
    inv s = (.data, BitVec.ofNat 6 (s.toNat - 0x41)) := by
  simp [inv, BitVec.le_def, h, rangeValue_eq_ofNat]

theorem inv_lower {s : Byte} (h : 0x61 ≤ s.toNat ∧ s.toNat ≤ 0x7A) :
    inv s = (.data, BitVec.ofNat 6 (s.toNat - 0x61 + 26)) := by
  have notUpper : ¬ s.toNat ≤ 0x5A := by omega
  simp [inv, BitVec.le_def, h, notUpper, rangeValue_eq_ofNat]

theorem inv_digit {s : Byte} (h : 0x30 ≤ s.toNat ∧ s.toNat ≤ 0x39) :
    inv s = (.data, BitVec.ofNat 6 (s.toNat - 0x30 + 52)) := by
  have notUpper : ¬ 0x41 ≤ s.toNat := by omega
  have notLower : ¬ 0x61 ≤ s.toNat := by omega
  simp [inv, BitVec.le_def, h, notUpper, notLower, rangeValue_eq_ofNat]

@[simp] theorem inv_plus : inv 0x2B = (.data, 62) := rfl

@[simp] theorem inv_slash : inv 0x2F = (.data, 63) := rfl

@[simp] theorem inv_equalsSign : inv 0x3D = (.pad, 0) := rfl

/-- The octets of the last row of the table of R35: no symbol of the alphabet and not `=`. -/
def OutsideAlphabet (s : Byte) : Prop :=
  s.toNat ≤ 0x2A ∨ 0x2C ≤ s.toNat ∧ s.toNat ≤ 0x2E ∨ 0x3A ≤ s.toNat ∧ s.toNat ≤ 0x3C ∨
    0x3E ≤ s.toNat ∧ s.toNat ≤ 0x40 ∨ 0x5B ≤ s.toNat ∧ s.toNat ≤ 0x60 ∨ 0x7B ≤ s.toNat

theorem inv_outsideAlphabet {s : Byte} (h : OutsideAlphabet s) : inv s = (.invalid, 0) := by
  unfold OutsideAlphabet at h
  unfold inv
  iterate 6 rw [if_neg (by bv_omega)]

/-- Every octet is in one of the seven rows of the table of R35. -/
theorem symbol_rows (s : Byte) :
    (0x41 ≤ s.toNat ∧ s.toNat ≤ 0x5A) ∨ (0x61 ≤ s.toNat ∧ s.toNat ≤ 0x7A) ∨ (0x30 ≤ s.toNat ∧ s.toNat ≤ 0x39) ∨
      s = 0x2B ∨ s = 0x2F ∨ s = 0x3D ∨ OutsideAlphabet s := by
  unfold OutsideAlphabet
  bv_omega

/-- The class code of `DATA` is 0, so the ROM entry of a data symbol is its value. -/
theorem invEntry_toNat_of_data {s : Byte} {n : Nat} (row : inv s = (.data, BitVec.ofNat 6 n)) (small : n < 64) :
    (invEntry s).toNat = n := by
  rw [invEntry, row, toNat_cat_2_6, BitVec.toNat_ofNat, Nat.mod_eq_of_lt small, SymClass.code]
  simp

/-- How many octets have each class (R35). -/
theorem inv_class_count (c : SymClass) :
    ((List.range 256).filter fun n => (inv (BitVec.ofNat 8 n)).1 == c).length =
      match c with | .data => 64 | .pad => 1 | .invalid => 191 := by
  cases c <;> rfl

/-- Settles O2: one lemma about `inv` for each row of the table, and the ROM entry from that row. -/
theorem inverseTableContents : Obligations.InverseTableContents := by
  refine ⟨⟨inv_class_count .data, inv_class_count .pad, inv_class_count .invalid⟩, fun s =>
    ⟨fun h => ?upper, fun h => ?lower, fun h => ?digit, fun h => ?plus, fun h => ?slash, fun h => ?pad,
      fun h => ?outside⟩⟩
  case upper => exact ⟨inv_upper h, invEntry_toNat_of_data (inv_upper h) (by omega)⟩
  case lower => exact ⟨inv_lower h, invEntry_toNat_of_data (inv_lower h) (by omega)⟩
  case digit => exact ⟨inv_digit h, invEntry_toNat_of_data (inv_digit h) (by omega)⟩
  case plus => exact h ▸ ⟨inv_plus, rfl⟩
  case slash => exact h ▸ ⟨inv_slash, rfl⟩
  case pad => exact h ▸ ⟨inv_equalsSign, rfl⟩
  case outside => exact ⟨inv_outsideAlphabet h, by rw [invEntry, inv_outsideAlphabet h]; rfl⟩

/-! The two tables undo each other (R36). -/

theorem inv_alpha (i : Index) : inv (alpha i) = (.data, i) := by
  rcases index_ranges i with h | h | h | rfl | rfl
  · have symbol := alpha_toNat_upper i h
    rw [inv_upper (by omega), Prod.mk.injEq]
    exact ⟨rfl, by bv_omega⟩
  · have symbol := alpha_toNat_lower i h
    rw [inv_lower (by omega), Prod.mk.injEq]
    exact ⟨rfl, by bv_omega⟩
  · have symbol := alpha_toNat_digit i h
    rw [inv_digit (by omega), Prod.mk.injEq]
    exact ⟨rfl, by bv_omega⟩
  · rw [alpha_62, inv_plus]
  · rw [alpha_63, inv_slash]

/-- A symbol in a row of data gets its value from that row. -/
theorem value_toNat_of_row {s : Byte} {v : Index} {n : Nat} (h : inv s = (.data, v))
    (row : inv s = (.data, BitVec.ofNat 6 n)) (small : n < 64) : v.toNat = n := by
  obtain rfl : v = BitVec.ofNat 6 n := congrArg Prod.snd (h.symm.trans row)
  exact Nat.mod_eq_of_lt small

theorem alpha_of_inv_data {s : Byte} {v : Index} (h : inv s = (.data, v)) : alpha v = s := by
  rcases symbol_rows s with row | row | row | rfl | rfl | rfl | row
  · have value := value_toNat_of_row h (inv_upper row) (by omega)
    have symbol := alpha_toNat_upper v (by omega)
    exact BitVec.eq_of_toNat_eq (by omega)
  · have value := value_toNat_of_row h (inv_lower row) (by omega)
    have symbol := alpha_toNat_lower v (by omega)
    exact BitVec.eq_of_toNat_eq (by omega)
  · have value := value_toNat_of_row h (inv_digit row) (by omega)
    have symbol := alpha_toNat_digit v (by omega)
    exact BitVec.eq_of_toNat_eq (by omega)
  · cases inv_plus.symm.trans h
    exact alpha_62
  · cases inv_slash.symm.trans h
    exact alpha_63
  · cases inv_equalsSign.symm.trans h
  · cases (inv_outsideAlphabet row).symm.trans h

/-- Settles O3: on each range the row of `INV` undoes the closed form of `ALPHA`, and the other way round. -/
theorem tablesAreMutuallyInverse : Obligations.TablesAreMutuallyInverse :=
  ⟨inv_alpha, fun _ _ => alpha_of_inv_data⟩

/-- Settles O34: each field is read off the reset state. -/
theorem resetState : Obligations.ResetState := ⟨rfl, rfl, rfl, rfl, rfl, rfl, rfl⟩

end Sys2Proof.Machine
end

section
/-! Words of the interface (30_encoding.md R63, R64, R66): which words the decoder reads, what a response word holds,
and which command answers with which fields. -/

namespace Sys2Proof

/-! The fields of a command word, as numbers (R61). -/

theorem cmdOp_toNat (w : CmdWord) : (cmdOp w).toNat = w.toNat / 2 ^ 56 := by
  rw [cmdOp, toNat_extract]
  omega

theorem cmdRsv_toNat (w : CmdWord) : (cmdRsv w).toNat = w.toNat / 2 ^ 32 % 2 ^ 24 := by
  rw [cmdRsv, toNat_extract]

theorem byte0Of_cmdData_toNat (w : CmdWord) : (byte0Of (cmdData w)).toNat = w.toNat % 2 ^ 8 := by
  rw [byte0Of, cmdData, toNat_extract, toNat_extract]
  omega

theorem mem_listedOps_iff (op : Byte) :
    op ∈ listedOps ↔ op.toNat ∈ [0x10, 0x11, 0x12, 0x13, 0x20, 0x21, 0x30, 0x31, 0x40] := by
  simp [listedOps, ← BitVec.toNat_inj]

/-! Decoding (R66). -/

/-- The causes of R66 for which a word is `IllegalCommand`. -/
def IllegalWord (w : CmdWord) : Prop :=
  cmdOp w ∉ listedOps ∨ cmdRsv w ≠ 0 ∨ (cmdOp w = 0x40 ∧ regnoImplemented (byte0Of (cmdData w)) = false)

theorem illegalWord_iff_toNat (w : CmdWord) :
    IllegalWord w ↔ w.toNat / 2 ^ 56 ∉ [0x10, 0x11, 0x12, 0x13, 0x20, 0x21, 0x30, 0x31, 0x40] ∨
      w.toNat / 2 ^ 32 % 2 ^ 24 ≠ 0 ∨ (w.toNat / 2 ^ 56 = 0x40 ∧ w.toNat % 2 ^ 8 > 3) := by
  rw [IllegalWord, mem_listedOps_iff, ← cmdOp_toNat, ← cmdRsv_toNat, ← byte0Of_cmdData_toNat]
  simp [regnoImplemented, ← BitVec.toNat_inj]

/-- A listed `OP` gives its command, but for `DRD` of a register that is not implemented. -/
theorem decodeListed_cases {op : Byte} (listed : op ∈ listedOps) (d : Word) :
    ((op = 0x40 ∧ regnoImplemented (byte0Of d) = false) ∧ decodeListed op d = .error .reservedRegister) ∨
    (¬ (op = 0x40 ∧ regnoImplemented (byte0Of d) = false) ∧
      ∃ i, decodeListed op d = .ok i ∧ i.wf = true ∧ opcodeOf i = op) := by
  by_cases drd : op = 0x40
  · subst drd
    cases implemented : regnoImplemented (byte0Of d)
    · exact .inl ⟨⟨rfl, rfl⟩, by simp [decodeListed, implemented]⟩
    · exact .inr ⟨by simp, .drd (byte0Of d), by simp [decodeListed, implemented], implemented, rfl⟩
  · refine .inr ⟨fun h => drd h.1, ?_⟩
    simp only [listedOps, List.mem_cons, List.not_mem_nil, drd, or_false] at listed
    rcases listed with rfl | rfl | rfl | rfl | rfl | rfl | rfl | rfl <;> exact ⟨_, rfl, rfl, rfl⟩

/-- Every word is illegal and rejected, or legal and read as a well-formed command of its `OP`. -/
theorem decode_cases (w : CmdWord) :
    (IllegalWord w ∧ ∃ e, decode w = .error e) ∨
    (¬ IllegalWord w ∧ ∃ i, decode w = .ok i ∧ i.wf = true ∧ opcodeOf i = cmdOp w) := by
  unfold IllegalWord decode
  by_cases listed : cmdOp w ∈ listedOps
  swap
  · exact .inl ⟨.inl listed, _, if_pos listed⟩
  by_cases rsv : cmdRsv w = 0
  swap
  · exact .inl ⟨.inr (.inl rsv), _, by rw [if_neg (not_not.2 listed), if_pos rsv]⟩
  rw [if_neg (not_not.2 listed), if_neg (not_not.2 rsv)]
  rcases decodeListed_cases listed (cmdData w) with ⟨reserved, rejected⟩ | ⟨legal, read⟩
  · exact .inl ⟨.inr (.inr reserved), _, rejected⟩
  · refine .inr ⟨fun illegal => ?_, read⟩
    rcases illegal with unlisted | rsvSet | reserved
    exacts [unlisted listed, rsvSet rsv, legal reserved]

theorem wf_of_decode {w : CmdWord} {i : Instr} (read : decode w = .ok i) : i.wf = true := by
  rcases decode_cases w with ⟨-, e, rejected⟩ | ⟨-, i', read', wf, -⟩
  · cases read.symm.trans rejected
  · cases read.symm.trans read'
    exact wf

end Sys2Proof

namespace Sys2Proof.Machine

theorem runWord_of_decode {w : CmdWord} {i : Instr} (read : decode w = .ok i) (s : State) :
    runWord w s = exec i s := by
  rw [runWord, read]

theorem runWord_of_error {w : CmdWord} {e : Reject} (rejected : decode w = .error e) (s : State) :
    runWord w s = .next (raiseIllegalCommand s) := by
  rw [runWord, rejected]

/-- Settles O4: `decode_cases` with the causes of R66 written as numbers. -/
theorem runWordFollowsDecode : Obligations.RunWordFollowsDecode := by
  intro w s op illegal
  have illegal_iff : IllegalWord w ↔ illegal := illegalWord_iff_toNat w
  rw [← illegal_iff]
  rcases decode_cases w with ⟨bad, e, rejected⟩ | ⟨good, i, read, wf, opcode⟩
  · exact ⟨fun _ => runWord_of_error rejected s, fun good => absurd bad good⟩
  · exact ⟨fun bad => absurd bad good,
      fun _ => ⟨i, read, wf, by rw [opcode, cmdOp_toNat], runWord_of_decode read s⟩⟩

/-! The fields of a response word (R63). -/

/-- The four fields of a response word put together from them, for every 4-bit status. -/
theorem rspFields_of_concat (st : BitVec 4) (n : BitVec 3) (l : Bool) (d : Word) :
    let r : RspWord := st ++ n ++ BitVec.ofBool l ++ d
    rspStatus r = st ∧ rspCount r = n ∧ rspLast r = l ∧ rspData r = d := by
  refine ⟨?status, ?count, ?last, ?data⟩
  case status =>
    apply BitVec.eq_of_toNat_eq
    rw [rspStatus, toNat_extract, toNat_cat_4_3_1_32]
    omega
  case count =>
    apply BitVec.eq_of_toNat_eq
    rw [rspCount, toNat_extract, toNat_cat_4_3_1_32]
    omega
  case last =>
    rw [rspLast, BitVec.getLsbD, toNat_cat_4_3_1_32, Nat.testBit_eq_decide_div_mod_eq]
    cases l <;> simp <;> omega
  case data =>
    apply BitVec.eq_of_toNat_eq
    rw [rspData, toNat_extract, toNat_cat_4_3_1_32]
    omega

theorem packRsp_eq_concat_fields (st : Status) (n : BitVec 3) (l : Bool) (d : Word) :
    let r := packRsp st n l d
    r = (rspStatus r ++ rspCount r ++ BitVec.ofBool (rspLast r) ++ rspData r : BitVec 40) := by
  simp only [rspStatus_packRsp, rspCount_packRsp, rspLast_packRsp, rspData_packRsp]
  rfl

theorem Status.code_inj {st st' : Status} : st.code = st'.code ↔ st = st' := by
  cases st <;> cases st' <;> decide

/-! The commands that write no register answer `OK` without `LAST`. -/

theorem instr_cases (i : Instr) :
    (∃ len, i = .dstart len) ∨ (∃ s0 s1 s2 s3, i = .dgrp s0 s1 s2 s3) ∨ writesRegisters i = false := by
  cases i <;> simp [writesRegisters]

/-- `COUNT` of a command that writes no register: four symbols from an encoder command with bytes (R63). -/
def symbolCount : Instr → BitVec 3
  | .enc3 _ _ _ => 4
  | .enc2 _ _ => 4
  | .enc1 _ => 4
  | _ => 0

theorem execDrd_cases (regno : Byte) (s : State) :
    (∃ v, execDrd regno s = .next (respond .ok 0 false v s)) ∨
    (regnoImplemented regno = false ∧ execDrd regno s = .next (raiseIllegalCommand s)) := by
  rw [← statusReg_isSome_iff regno s, execDrd]
  cases statusReg regno s with
  | some v => exact .inl ⟨v, rfl⟩
  | none => exact .inr ⟨rfl, rfl⟩

/-- Everything a command that writes no register can do. -/
theorem exec_cases_of_keepsRegisters {i : Instr} (keeps : writesRegisters i = false) (s : State) :
    (∃ d, exec i s = .next (respond .ok (symbolCount i) false d s)) ∨
    (i.wf = false ∧ exec i s = .next (raiseIllegalCommand s)) := by
  cases i with
  | dstart len => cases keeps
  | dgrp s0 s1 s2 s3 => cases keeps
  | drd regno => exact execDrd_cases regno s
  | _ => exact .inl ⟨_, rfl⟩

/-! `COUNT` and `LAST` per command (R63). -/

/-- `COUNT` = `n` and `LAST` = `l` are as R63 says for an `OK` response to `i` that takes `s` to `t`. -/
def OkFields (i : Instr) (s t : State) (n : BitVec 3) (l : Bool) : Prop :=
  match i with
  | .dgrp _ _ _ _ => 1 ≤ n.toNat ∧ n.toNat ≤ 3 ∧ (l = true ↔ s.drem = 1) ∧ (l = true → t.dstate = .done)
  | .dstart len => n = 0 ∧ (l = true ↔ len = 0) ∧ (l = true → t.dstate = .done)
  | i => n = symbolCount i ∧ l = false

theorem okFields_of_keepsRegisters {i : Instr} (keeps : writesRegisters i = false) (s t : State) :
    OkFields i s t (symbolCount i) false := by
  cases i <;> simp_all [writesRegisters, OkFields]

/-- `i` answers in `s` with one response whose `COUNT` and `LAST` are as R63 says. -/
def AnswersByR63 (i : Instr) (s : State) : Prop :=
  ∃ t st n l d, exec i s = .next t ∧ t.pending = s.pending ++ [⟨packRsp st n l d, Config.extraLatency⟩] ∧
    (st ≠ .ok → n = 0 ∧ l = false) ∧ (st = .ok → OkFields i s t n l)

theorem answersByR63_of_error {i : Instr} {s t : State} {st : Status} {d : Word} (run : exec i s = .next t)
    (queued : t.pending = s.pending ++ [⟨packRsp st 0 false d, Config.extraLatency⟩]) (error : st ≠ .ok) :
    AnswersByR63 i s :=
  ⟨t, st, 0, false, d, run, queued, fun _ => ⟨rfl, rfl⟩, fun ok => absurd ok error⟩

theorem answersByR63_of_ok {i : Instr} {s t : State} {n : BitVec 3} {l : Bool} {d : Word} (run : exec i s = .next t)
    (queued : t.pending = s.pending ++ [⟨packRsp .ok n l d, Config.extraLatency⟩]) (fields : OkFields i s t n l) :
    AnswersByR63 i s :=
  ⟨t, .ok, n, l, d, run, queued, fun error => absurd rfl error, fun _ => fields⟩

theorem dstart_answersByR63 (len : Word) (s : State) : AnswersByR63 (.dstart len) s := by
  rcases execDstart_cases len s with ⟨-, run⟩ | ⟨empty, run⟩ | ⟨-, nonempty, run⟩
  · exact answersByR63_of_error run rfl (by decide)
  · exact answersByR63_of_ok run rfl ⟨rfl, iff_of_true rfl empty, fun _ => rfl⟩
  · exact answersByR63_of_ok run rfl ⟨rfl, iff_of_false (by decide) nonempty, fun last => by cases last⟩

/-- Three bytes less one for each pad. -/
theorem groupCount_bounds {npad : Nat} (h : npad < 3) :
    1 ≤ (BitVec.ofNat 3 (3 - npad)).toNat ∧ (BitVec.ofNat 3 (3 - npad)).toNat ≤ 3 := by
  rw [BitVec.toNat_ofNat]
  omega

theorem dgrp_answersByR63 (s0 s1 s2 s3 : Byte) (s : State) : AnswersByR63 (.dgrp s0 s1 s2 s3) s := by
  rcases execDgrp_cases s0 s1 s2 s3 s with
    ⟨-, run⟩ | ⟨-, j, -, -, run⟩ | ⟨-, -, -, run⟩ | ⟨-, npad, small, -, -, run⟩
  · exact answersByR63_of_error run rfl (by decide)
  · exact answersByR63_of_error run rfl (by decide)
  · exact answersByR63_of_error run rfl (by decide)
  · obtain ⟨atLeastOne, atMostThree⟩ := groupCount_bounds small
    exact answersByR63_of_ok run rfl
      ⟨atLeastOne, atMostThree, by simp, fun final => by rw [acceptGroup_dstate, if_pos final]⟩

theorem answersByR63 (i : Instr) (s : State) : AnswersByR63 i s := by
  rcases instr_cases i with ⟨len, rfl⟩ | ⟨s0, s1, s2, s3, rfl⟩ | keeps
  · exact dstart_answersByR63 len s
  · exact dgrp_answersByR63 s0 s1 s2 s3 s
  · rcases exec_cases_of_keepsRegisters keeps s with ⟨d, run⟩ | ⟨-, run⟩
    · exact answersByR63_of_ok run rfl (okFields_of_keepsRegisters keeps s _)
    · exact answersByR63_of_error run rfl (by decide)

/-- Settles O10: the fields are read off the word that `answersByR63` gives. -/
theorem responseFieldsPerCommand : Obligations.ResponseFieldsPerCommand := by
  refine ⟨rspFields_of_concat, fun i s => ?_⟩
  obtain ⟨t, st, n, l, d, run, queued, error, ok⟩ := answersByR63 i s
  have code_zero_iff : st.code = 0 ↔ st = .ok := Status.code_inj (st' := .ok)
  refine ⟨t, packRsp st n l d, run, queued, packRsp_eq_concat_fields st n l d, ?_, ?_⟩ <;>
    simp only [rspStatus_packRsp, rspCount_packRsp, rspLast_packRsp, ne_eq, code_zero_iff]
  · exact error
  · intro isOk
    have fields := ok isOk
    cases i <;> exact fields

/-! Which word produces which status (R64). -/

/-- The symbol `k` of a group read in `s` has one of the causes of R103. -/
def HasCause (s : State) (group : List Byte) (k : Nat) : Prop :=
  (inv (group.getD k 0)).1 = .invalid ∨ (group.getD k 0 = 0x3D ∧ (s.drem ≠ 1 ∨ k < 2))

theorem getD_class (s0 s1 s2 s3 : Byte) {k : Nat} (h : k < 4) :
    [(inv s0).1, (inv s1).1, (inv s2).1, (inv s3).1].getD k .data = (inv ([s0, s1, s2, s3].getD k 0)).1 := by
  interval_cases k <;> rfl

/-- Check 1 of the validator is the causes of R103. -/
theorem unexpectedAt_iff_hasCause (s : State) (s0 s1 s2 s3 : Byte) {k : Nat} (h : k < 4) :
    unexpectedAt (decide (s.drem = 1)) k ([(inv s0).1, (inv s1).1, (inv s2).1, (inv s3).1].getD k .data) = true ↔
      HasCause s [s0, s1, s2, s3] k := by
  rw [getD_class s0 s1 s2 s3 h, unexpectedAt_inv_iff, decide_eq_false_iff_not, HasCause]

/-- The position the validator reports is the lowest with a cause. -/
theorem lowest_cause_of_unexpected {s : State} {s0 s1 s2 s3 : Byte} {j : Nat}
    (h : validate (decide (s.drem = 1)) (inv s0).1 (inv s1).1 (inv s2).1 (inv s3).1 = .unexpected j) :
    j < 4 ∧ HasCause s [s0, s1, s2, s3] j ∧ ∀ k, k < j → ¬ HasCause s [s0, s1, s2, s3] k := by
  obtain ⟨small, here, below⟩ := validate_unexpected h
  refine ⟨small, (unexpectedAt_iff_hasCause s s0 s1 s2 s3 small).1 here, fun k hk cause => ?_⟩
  have found := (unexpectedAt_iff_hasCause s s0 s1 s2 s3 (hk.trans small)).2 cause
  rw [below k hk] at found
  cases found

/-- The row of the table of R64: what a response of this status with `RDATA` = `d` says of the word `w` that takes
`s` to `t`. -/
def StatusRow (w : CmdWord) (s t : State) (d : Word) : Status → Prop
  | .ok => ∃ i, decode w = .ok i ∧ exec i s = .next t
  | .invalidLength => t.derr = .invalidLength ∧ (∃ len, decode w = .ok (.dstart len)) ∧ d = 0
  | .unexpectedCharacter => t.derr = .unexpectedCharacter ∧ s.dstate = .active ∧ d = t.derrpos ∧
      ∃ s0 s1 s2 s3 j, decode w = .ok (.dgrp s0 s1 s2 s3) ∧ j < 4 ∧ d = s.dpos + BitVec.ofNat 32 j ∧
        HasCause s [s0, s1, s2, s3] j ∧ ∀ k, k < j → ¬ HasCause s [s0, s1, s2, s3] k
  | .invalidPadding => t.derr = .invalidPadding ∧ (∃ s0 s1 s2 s3, decode w = .ok (.dgrp s0 s1 s2 s3)) ∧
      s.dstate = .active ∧ d = 0
  | .noStream => (∃ s0 s1 s2 s3, decode w = .ok (.dgrp s0 s1 s2 s3)) ∧ s.dstate ≠ .active ∧ d = 0
  | .illegalCommand => (∃ e, decode w = .error e) ∧ d = 0

/-- `w` takes `s` to a state with one more response, of which its row of R64 holds. -/
def AnswersByR64 (w : CmdWord) (s : State) : Prop :=
  ∃ t st n l d, runWord w s = .next t ∧ t.pending = s.pending ++ [⟨packRsp st n l d, Config.extraLatency⟩] ∧
    StatusRow w s t d st

theorem dstart_answersByR64 {w : CmdWord} {len : Word} (read : decode w = .ok (.dstart len)) (s : State) :
    AnswersByR64 w s := by
  have asExec : runWord w s = execDstart len s := runWord_of_decode read s
  rcases execDstart_cases len s with ⟨-, run⟩ | ⟨-, run⟩ | ⟨-, -, run⟩
  · exact ⟨_, .invalidLength, _, _, _, asExec.trans run, rfl, rfl, ⟨len, read⟩, rfl⟩
  · exact ⟨_, .ok, _, _, _, asExec.trans run, rfl, _, read, run⟩
  · exact ⟨_, .ok, _, _, _, asExec.trans run, rfl, _, read, run⟩

theorem dgrp_answersByR64 {w : CmdWord} {s0 s1 s2 s3 : Byte} (read : decode w = .ok (.dgrp s0 s1 s2 s3))
    (s : State) : AnswersByR64 w s := by
  have asExec : runWord w s = execDgrp s0 s1 s2 s3 s := runWord_of_decode read s
  have isDgrp : ∃ s0 s1 s2 s3, decode w = .ok (.dgrp s0 s1 s2 s3) := ⟨s0, s1, s2, s3, read⟩
  rcases execDgrp_cases s0 s1 s2 s3 s with
    ⟨inactive, run⟩ | ⟨active, j, -, verdict, run⟩ | ⟨active, -, -, run⟩ | ⟨-, npad, -, -, -, run⟩
  · exact ⟨_, .noStream, _, _, _, asExec.trans run, rfl, isDgrp, inactive, rfl⟩
  · obtain ⟨small, cause, lowest⟩ := lowest_cause_of_unexpected verdict
    exact ⟨_, .unexpectedCharacter, _, _, _, asExec.trans run, rfl, rfl, active, rfl,
      s0, s1, s2, s3, j, read, small, rfl, cause, lowest⟩
  · exact ⟨_, .invalidPadding, _, _, _, asExec.trans run, rfl, rfl, isDgrp, active, rfl⟩
  · exact ⟨_, .ok, _, _, _, asExec.trans run, rfl, _, read, run⟩

theorem keepsRegisters_answersByR64 {w : CmdWord} {i : Instr} (read : decode w = .ok i)
    (keeps : writesRegisters i = false) (s : State) : AnswersByR64 w s := by
  rcases exec_cases_of_keepsRegisters keeps s with ⟨d, run⟩ | ⟨notWf, -⟩
  · exact ⟨_, .ok, _, _, _, (runWord_of_decode read s).trans run, rfl, i, read, run⟩
  · cases notWf.symm.trans (wf_of_decode read)

theorem answersByR64 (w : CmdWord) (s : State) : AnswersByR64 w s := by
  rcases runWord_cases w s with ⟨i, read, -⟩ | ⟨e, rejected, run⟩
  · rcases instr_cases i with ⟨len, rfl⟩ | ⟨s0, s1, s2, s3, rfl⟩ | keeps
    · exact dstart_answersByR64 read s
    · exact dgrp_answersByR64 read s
    · exact keepsRegisters_answersByR64 read keeps s
  · exact ⟨_, .illegalCommand, _, _, _, run, rfl, ⟨e, rejected⟩, rfl⟩

theorem Status.code_toNat_le (st : Status) : st.code.toNat ≤ 5 := by
  cases st <;> decide

/-- Only the words the decoder rejects are answered with status 5. -/
theorem StatusRow.illegal_iff {w : CmdWord} {s t : State} {d : Word} {st : Status} (row : StatusRow w s t d st) :
    st = .illegalCommand ↔ ∃ e, decode w = .error e := by
  cases st with
  | ok => obtain ⟨i, read, -⟩ := row; simp [read]
  | invalidLength => obtain ⟨-, ⟨len, read⟩, -⟩ := row; simp [read]
  | unexpectedCharacter => obtain ⟨-, -, -, s0, s1, s2, s3, j, read, -⟩ := row; simp [read]
  | invalidPadding => obtain ⟨-, ⟨s0, s1, s2, s3, read⟩, -⟩ := row; simp [read]
  | noStream => obtain ⟨⟨s0, s1, s2, s3, read⟩, -⟩ := row; simp [read]
  | illegalCommand => simp [row.1]

/-- Codes 1 to 3 are the code of `DERR`. -/
theorem StatusRow.code_eq_derr {w : CmdWord} {s t : State} {d : Word} {st : Status} (row : StatusRow w s t d st)
    (decodeError : 1 ≤ st.code.toNat ∧ st.code.toNat ≤ 3) : st.code.toNat = t.derr.code.toNat := by
  cases st with
  | invalidLength => rw [row.1]; rfl
  | unexpectedCharacter => rw [row.1]; rfl
  | invalidPadding => rw [row.1]; rfl
  | ok => exact absurd decodeError (by decide)
  | noStream => exact absurd decodeError (by decide)
  | illegalCommand => exact absurd decodeError (by decide)

/-- Settles O11: the row of R64 that `answersByR64` gives, at each code. -/
theorem statusProducers : Obligations.StatusProducers := by
  intro w s cause
  obtain ⟨t, st, n, l, d, run, queued, row⟩ := answersByR64 w s
  have of_code {st' : Status} (h : rspStatus (packRsp st n l d) = st'.code) : StatusRow w s t d st' := by
    rw [rspStatus_packRsp, Status.code_inj] at h
    exact h ▸ row
  refine ⟨t, packRsp st n l d, run, queued, ?_⟩
  simp only [rspData_packRsp]
  refine ⟨?le, of_code (st' := .ok), ?derr, fun h => (of_code (st' := .invalidLength) h).2,
    fun h => (of_code (st' := .unexpectedCharacter) h).2, fun h => (of_code (st' := .invalidPadding) h).2,
    of_code (st' := .noStream), ?illegal, fun h => (of_code (st' := .illegalCommand) h).2⟩ <;>
    rw [rspStatus_packRsp]
  case le => exact st.code_toNat_le
  case derr => exact row.code_eq_derr
  case illegal => exact (Status.code_inj (st' := .illegalCommand)).trans row.illegal_iff

end Sys2Proof.Machine
end

section
/-! The encoder unit (40_encoder.md R75 to R80): the one response of each encoder command, in every state. -/

namespace Sys2Proof.Machine

/-- `SPLIT` cuts the group at the bit positions R80 writes out. -/
theorem split_eq_bitFields (g : BitVec 24) :
    split g = (g.extractLsb 23 18, g.extractLsb 17 12, g.extractLsb 11 6, g.extractLsb 5 0) := rfl

/-- `respond(0, 4, 0, ...)` of R75 to R77, with the fields of the response word (R63) written out. -/
theorem respondSymbols_eq_answering (s0 s1 s2 s3 : Byte) (s : State) :
    respondSymbols s0 s1 s2 s3 s =
      answering s (0#4 ++ 4#3 ++ 0#1 ++ (s0 ++ s1 ++ s2 ++ s3 : BitVec 32) : BitVec 40) := rfl

/-- Settles O12: the symbols of the bit fields of the group, by `split_eq_bitFields`. -/
theorem enc3Result : Obligations.Enc3Result := by
  intro a b c s g
  rw [exec, execEnc3, split_eq_bitFields]
  exact congrArg Host.Outcome.next (respondSymbols_eq_answering ..)

/-- Settles O13: as `enc3Result`, with the missing byte 0 and a pad as the fourth symbol. -/
theorem enc2Result : Obligations.Enc2Result := by
  intro a b s g
  rw [exec, execEnc2, split_eq_bitFields]
  exact congrArg Host.Outcome.next (respondSymbols_eq_answering ..)

/-- Settles O14: as `enc3Result`, with the two missing bytes 0 and pads as the last two symbols. -/
theorem enc1Result : Obligations.Enc1Result := by
  intro a s g
  rw [exec, execEnc1, split_eq_bitFields]
  exact congrArg Host.Outcome.next (respondSymbols_eq_answering ..)

/-- Settles O15: the word of `respond(0, 0, 0, 0)` is 0. -/
theorem enc0Result : Obligations.Enc0Result := by
  intro s
  have word : packRsp .ok 0 false 0 = 0x0000000000 := by decide
  rw [← word, ← respond_eq_answering]
  rfl

/-- The status field of a word that begins with the code of `OK`. -/
theorem rspStatus_ok (n : BitVec 3) (d : Word) : rspStatus (0#4 ++ n ++ 0#1 ++ d : BitVec 40) = 0 :=
  rspStatus_packRsp .ok n false d

/-- Settles O18: each encoder command's response, given by the four statements above, names no field of the state. -/
theorem encoderIgnoresAndKeepsState : Obligations.EncoderIgnoresAndKeepsState := by
  rintro i (rfl | ⟨a, rfl⟩ | ⟨a, b, rfl⟩ | ⟨a, b, c, rfl⟩)
  · exact ⟨_, by decide, enc0Result⟩
  · exact ⟨_, rspStatus_ok _ _, enc1Result a⟩
  · exact ⟨_, rspStatus_ok _ _, enc2Result a b⟩
  · exact ⟨_, rspStatus_ok _ _, enc3Result a b c⟩

end Sys2Proof.Machine
end

section
/-! The decoder unit (41_decoder.md R85, R86, R90): the branches of `DSTART`, and what a final `DGRP` that the validator
accepts delivers. -/

namespace Sys2Proof.Machine

/-! `DSTART` (R85). -/

/-- `DREM` counts groups of 4 symbols: the shift of R85 is the division of the text's length. -/
theorem ushiftRight_two_eq_ofNat_div_four (len : Word) : len >>> 2 = BitVec.ofNat 32 (len.toNat / 4) := by
  apply BitVec.eq_of_toNat_eq
  rw [BitVec.toNat_ushiftRight, Nat.shiftRight_eq_div_pow, BitVec.toNat_ofNat]
  omega

/-- Settles O19: each branch that `execDstart_cases` gives meets its own clause and the guard of no other. -/
theorem dstartResult : Obligations.DstartResult := by
  intro len s
  rcases execDstart_cases len s with ⟨unaligned, run⟩ | ⟨rfl, run⟩ | ⟨aligned, nonempty, run⟩
  · exact ⟨fun _ => run, fun empty => absurd (by rw [empty]; rfl) unaligned, fun h => absurd h.1 unaligned⟩
  · exact ⟨fun unaligned => absurd rfl unaligned, fun _ => run, fun h => absurd rfl h.2⟩
  · rw [ushiftRight_two_eq_ofNat_div_four] at run
    exact ⟨absurd aligned, fun empty => absurd empty nonempty, fun _ => run⟩

/-! The word of the bytes delivered (R86, R90): the lanes beyond `COUNT` are 0. -/

theorem byteWord_one (bs : Byte × Byte × Byte) : byteWord 1 bs = (0#8 ++ bs.1 ++ 0#8 ++ 0#8 : BitVec 32) := rfl

theorem byteWord_two (bs : Byte × Byte × Byte) : byteWord 2 bs = (0#8 ++ bs.1 ++ bs.2.1 ++ 0#8 : BitVec 32) := rfl

theorem byteWord_three (bs : Byte × Byte × Byte) : byteWord 3 bs = (0#8 ++ bs.1 ++ bs.2.1 ++ bs.2.2 : BitVec 32) := rfl

/-- The three bytes of `COLLAPSE` put together again are the four values. -/
theorem byteWord_three_collapse (v0 v1 v2 v3 : Index) :
    byteWord 3 (collapse v0 v1 v2 v3) = (0#8 ++ (v0 ++ v1 ++ v2 ++ v3 : BitVec 24) : BitVec 32) := by
  apply BitVec.eq_of_toNat_eq
  rw [byteWord_three, toNat_cat_8_8_8_8, toNat_append_add]
  simp only [collapse, toNat_extract]
  omega

/-! A final group (R86, R88). -/

theorem exec_dgrp_of_accepted {s0 s1 s2 s3 : Byte} {s : State} {npad : Nat} (active : s.dstate = .active)
    (verdict : validate (decide (s.drem = 1)) (inv s0).1 (inv s1).1 (inv s2).1 (inv s3).1 = .accepted npad) :
    exec (.dgrp s0 s1 s2 s3) s = .next
      (acceptGroup (decide (s.drem = 1)) npad (inv s0).2 (inv s1).2 (inv s2).2 (inv s3).2 s) := by
  rw [exec, execDgrp, if_neg (not_not.2 active)]
  simp only [verdict]

theorem acceptGroup_final {s : State} (last : s.drem = 1) (npad : Nat) (v0 v1 v2 v3 : Index) :
    acceptGroup true npad v0 v1 v2 v3 s = answering { s with dpos := s.dpos + 4, drem := 0, dstate := .done }
      (0#4 ++ BitVec.ofNat 3 (3 - npad) ++ 1#1 ++
        byteWord (BitVec.ofNat 3 (3 - npad)) (collapse v0 v1 v2 v3) : BitVec 40) := by
  rw [acceptGroup, last]
  rfl

/-- A final group accepted with `npad` trailing pads: the registers, and the response with `3 - npad` bytes. -/
theorem exec_dgrp_final_of_accepted {s0 s1 s2 s3 : Byte} {s : State} {npad : Nat} {n : BitVec 3} {d : Word}
    (active : s.dstate = .active) (last : s.drem = 1)
    (verdict : validate true (inv s0).1 (inv s1).1 (inv s2).1 (inv s3).1 = .accepted npad)
    (count : BitVec.ofNat 3 (3 - npad) = n)
    (bytes : byteWord n (collapse (inv s0).2 (inv s1).2 (inv s2).2 (inv s3).2) = d) :
    exec (.dgrp s0 s1 s2 s3) s = .next (answering { s with dpos := s.dpos + 4, drem := 0, dstate := .done }
      (0#4 ++ n ++ 1#1 ++ d : BitVec 40)) := by
  have final : decide (s.drem = 1) = true := decide_eq_true last
  rw [exec_dgrp_of_accepted active (by rwa [final]), final, acceptGroup_final last, count, bytes]

/-- Settles O24: the verdict on each of the three patterns of R88, and the word of the bytes it counts. -/
theorem dgrpFinalGroupOutput : Obligations.DgrpFinalGroupOutput := by
  intro s0 s1 s2 s3 s active last data0 data1 w t
  refine ⟨fun data2 data3 => ?full, fun data2 pad3 => ?onePad, fun pad2 pad3 => ?twoPads⟩
  case full =>
    have verdict : validate true (inv s0).1 (inv s1).1 (inv s2).1 (inv s3).1 = .accepted 0 := by
      rw [data0, data1, data2, data3]; rfl
    exact exec_dgrp_final_of_accepted active last verdict rfl (byteWord_three_collapse ..)
  case onePad =>
    have verdict : validate true (inv s0).1 (inv s1).1 (inv s2).1 (inv s3).1 = .accepted 1 := by
      rw [data0, data1, data2, (inv_class_pad_iff s3).2 pad3]; rfl
    exact exec_dgrp_final_of_accepted active last verdict rfl (byteWord_two _)
  case twoPads =>
    have verdict : validate true (inv s0).1 (inv s1).1 (inv s2).1 (inv s3).1 = .accepted 2 := by
      rw [data0, data1, (inv_class_pad_iff s2).2 pad2, (inv_class_pad_iff s3).2 pad3]; rfl
    exact exec_dgrp_final_of_accepted active last verdict rfl (byteWord_one _)

end Sys2Proof.Machine
end

section
/-! The status read and the table probes (42_status_lut.md R95 to R97): the one response of each, in every state. -/

namespace Sys2Proof.Machine

/-- `respond(0, 0, 0, v)` of R95 to R97, with the fields of the response word (R63) written out. -/
theorem respond_value_eq_answering (v : Word) (s : State) :
    respond .ok 0 false v s = answering s (0#4 ++ 0#3 ++ 0#1 ++ v : BitVec 40) := rfl

/-! `DRD` (R95). -/

theorem exec_drd_of_statusReg {regno : Byte} {s : State} {v : Word} (read : statusReg regno s = some v) :
    exec (.drd regno) s = .next (answering s (0#4 ++ 0#3 ++ 0#1 ++ v : BitVec 40)) := by
  rw [exec, execDrd, read, ← respond_value_eq_answering]

/-- A word of `DRD` that names a reserved register or has a bit of `RSV` set has a cause of R66. -/
theorem runWord_of_reserved_drd {w : CmdWord} (drd : w.toNat / 2 ^ 56 = 0x40)
    (reserved : 3 < w.toNat % 2 ^ 8 ∨ w.toNat / 2 ^ 32 % 2 ^ 24 ≠ 0) (s : State) :
    runWord w s = .next (answering s 0x5000000000) := by
  apply (runWordFollowsDecode w s).1
  rcases reserved with regno | rsv
  · exact .inr (.inr ⟨drd, regno⟩)
  · exact .inr (.inl rsv)

/-- Settles O27: each number reads its row of `statusReg`, and the other words of the opcode are illegal. -/
theorem drdResult : Obligations.DrdResult := by
  intro s
  refine ⟨?dstat, ?derrpos, ?dpos, ?drem, fun w drd reserved => ?illegal⟩
  case dstat => exact exec_drd_of_statusReg (v := dstat s) rfl
  case derrpos => exact exec_drd_of_statusReg rfl
  case dpos => exact exec_drd_of_statusReg rfl
  case drem => exact exec_drd_of_statusReg rfl
  case illegal => exact runWord_of_reserved_drd drd reserved s

/-! `LUTF` and `LUTI` (R96, R97). -/

/-- Settles O28: the value answered is the table's octet at the index. -/
theorem lutfResult : Obligations.LutfResult := by
  intro idx s
  rw [exec, execLutf, respond_value_eq_answering]

/-- Settles O29: the value answered is the ROM entry of the symbol, which is its class and its value. -/
theorem lutiResult : Obligations.LutiResult := by
  intro sym s
  rw [exec, execLuti, respond_value_eq_answering, invEntry]

end Sys2Proof.Machine
end

section
/-! The exceptions (60_exceptions.md R103, R105, R106): what an error answers, and which registers it leaves. -/

namespace Sys2Proof.Machine

/-! The error actions as answers of the claims' form, with the fields of the response word (R63) written out. -/

theorem raiseDecodeError_eq_answering (e : DErr) (pos : Word) (s : State) :
    raiseDecodeError e pos s = answering { s with dstate := .error, derr := e, derrpos := pos }
      (e.status.code ++ 0#3 ++ 0#1 ++ pos : BitVec 40) := rfl

theorem raiseNoStream_eq_answering (s : State) : raiseNoStream s = answering s 0x4000000000 := by
  have word : packRsp .noStream 0 false 0 = 0x4000000000 := by decide
  rw [raiseNoStream, respond_eq_answering, word]

theorem raiseIllegalCommand_eq_answering (s : State) : raiseIllegalCommand s = answering s 0x5000000000 := by
  have word : packRsp .illegalCommand 0 false 0 = 0x5000000000 := by decide
  rw [raiseIllegalCommand, respond_eq_answering, word]

/-! `UnexpectedCharacter` (R91, R103). -/

/-- The converse of `validate_unexpected`: the validator reports the lowest position with a cause of check 1. -/
theorem validate_eq_unexpected {fin : Bool} {c0 c1 c2 c3 : SymClass} {j : Nat} (small : j < 4)
    (here : unexpectedAt fin j ([c0, c1, c2, c3].getD j .data) = true)
    (below : ∀ k, k < j → ¬ unexpectedAt fin k ([c0, c1, c2, c3].getD k .data) = true) :
    validate fin c0 c1 c2 c3 = .unexpected j := by
  have pass (k : Nat) (hk : k < j) {a b : Verdict} :
      (if unexpectedAt fin k ([c0, c1, c2, c3].getD k .data) then a else b) = b := if_neg (below k hk)
  interval_cases j
  · exact if_pos here
  · exact (pass 0 (by decide)).trans (if_pos here)
  · exact (pass 0 (by decide)).trans ((pass 1 (by decide)).trans (if_pos here))
  · exact (pass 0 (by decide)).trans ((pass 1 (by decide)).trans ((pass 2 (by decide)).trans (if_pos here)))

/-- The converse of `lowest_cause_of_unexpected`: the lowest position with a cause is the one reported. -/
theorem validate_of_lowest_cause {s : State} {s0 s1 s2 s3 : Byte} {j : Nat} (small : j < 4)
    (here : HasCause s [s0, s1, s2, s3] j) (below : ∀ k, k < j → ¬ HasCause s [s0, s1, s2, s3] k) :
    validate (decide (s.drem = 1)) (inv s0).1 (inv s1).1 (inv s2).1 (inv s3).1 = .unexpected j :=
  validate_eq_unexpected small ((unexpectedAt_iff_hasCause s s0 s1 s2 s3 small).2 here)
    fun k hk => mt (unexpectedAt_iff_hasCause s s0 s1 s2 s3 (hk.trans small)).1 (below k hk)

/-- `HasCause` in the three causes (a), (b), (c) of R103. -/
theorem hasCause_iff (s : State) (group : List Byte) (k : Nat) :
    HasCause s group k ↔ (inv (group.getD k 0)).1 = .invalid ∨
      (group.getD k 0 = 0x3D ∧ s.drem ≠ 1) ∨ (group.getD k 0 = 0x3D ∧ s.drem = 1 ∧ k < 2) := by
  unfold HasCause
  tauto

theorem exec_dgrp_of_unexpected {s0 s1 s2 s3 : Byte} {s : State} {j : Nat} (active : s.dstate = .active)
    (verdict : validate (decide (s.drem = 1)) (inv s0).1 (inv s1).1 (inv s2).1 (inv s3).1 = .unexpected j) :
    exec (.dgrp s0 s1 s2 s3) s =
      .next (raiseDecodeError .unexpectedCharacter (s.dpos + BitVec.ofNat 32 j) s) := by
  rw [exec, execDgrp, if_neg (not_not.2 active)]
  simp only [verdict]

/-- Settles O21: the lowest position with a cause is the validator's verdict, and the error it raises. -/
theorem dgrpUnexpectedCharacter : Obligations.DgrpUnexpectedCharacter := by
  intro s0 s1 s2 s3 s j active small symbol cause here below
  have cause_iff (k : Nat) : HasCause s [s0, s1, s2, s3] k ↔ cause k := hasCause_iff s [s0, s1, s2, s3] k
  have verdict := validate_of_lowest_cause small ((cause_iff j).2 here) fun k hk => mt (cause_iff k).1 (below k hk)
  rw [exec_dgrp_of_unexpected active verdict, raiseDecodeError_eq_answering]
  rfl

/-! `NoStream` (R105). -/

/-- Settles O20: outside `ACTIVE` the first test of `DGRP` raises `NoStream`. -/
theorem dgrpNoStream : Obligations.DgrpNoStream := by
  intro s0 s1 s2 s3 s inactive
  rw [exec, execDgrp, if_pos inactive, raiseNoStream_eq_answering]

/-! `IllegalCommand` at an accepting edge (R106). -/

theorem step_of_accepts {s : State} (afterReset : s.sawReset = true) (kept : breaksOffer s (drivenEdge s) = false)
    (accepted : accepts s (drivenEdge s) = true) :
    step s = runWord (drivenEdge s).cmdWord (acceptEdge (drivenEdge s) s) := by
  have noReset : (drivenEdge s).rstN = true := by
    simp only [accepts, Bool.and_eq_true] at accepted
    obtain ⟨⟨noReset, -⟩, -⟩ := accepted
    exact noReset
  simp [step, atEdge, noReset, afterReset, kept, accepted]

theorem sameRegisters_acceptEdge (e : Edge) (s : State) : SameRegisters s (acceptEdge e s) := by
  constructor <;> simp

theorem SameRegisters.answering {s t : State} (h : SameRegisters s t) (r : RspWord) :
    SameRegisters s (answering t r) :=
  ⟨h.dstate, h.drem, h.dpos, h.derr, h.derrpos⟩

/-- Settles O37: the accepted word is run in the state of `acceptEdge`, where a rejected one raises
`IllegalCommand`. -/
theorem stepAnswersIllegalWord : Obligations.StepAnswersIllegalWord := by
  intro s e afterReset kept accepted rejected
  refine ⟨_, ?run, rfl, (sameRegisters_acceptEdge _ s).answering _, ?sawReset, ?offer⟩
  case run =>
    rw [step_of_accepts afterReset kept accepted, runWord_of_error rejected, raiseIllegalCommand_eq_answering]
  case sawReset => rw [answering_sawReset, acceptEdge_sawReset, afterReset]
  case offer => rw [answering_offer, acceptEdge_offer]

end Sys2Proof.Machine
end

section
/-! Encoding and decoding (30_encoding.md R61, R62, R69): a command survives its word, and a word its command but for
the ignored bits. -/

namespace Sys2Proof

/-! The four bytes of an operand field (R62). -/

@[simp] theorem byte3Of_concat (a b c d : Byte) : byte3Of (a ++ b ++ c ++ d : BitVec 32) = a := by
  apply BitVec.eq_of_toNat_eq
  rw [byte3Of, toNat_extract, toNat_cat_8_8_8_8]
  omega

@[simp] theorem byte2Of_concat (a b c d : Byte) : byte2Of (a ++ b ++ c ++ d : BitVec 32) = b := by
  apply BitVec.eq_of_toNat_eq
  rw [byte2Of, toNat_extract, toNat_cat_8_8_8_8]
  omega

@[simp] theorem byte1Of_concat (a b c d : Byte) : byte1Of (a ++ b ++ c ++ d : BitVec 32) = c := by
  apply BitVec.eq_of_toNat_eq
  rw [byte1Of, toNat_extract, toNat_cat_8_8_8_8]
  omega

@[simp] theorem byte0Of_concat (a b c d : Byte) : byte0Of (a ++ b ++ c ++ d : BitVec 32) = d := by
  apply BitVec.eq_of_toNat_eq
  rw [byte0Of, toNat_extract, toNat_cat_8_8_8_8]
  omega

@[simp] theorem byte2Of_concat_low16 (a b : Byte) (c : BitVec 16) : byte2Of (a ++ b ++ c : BitVec 32) = b := by
  apply BitVec.eq_of_toNat_eq
  rw [byte2Of, toNat_extract, toNat_cat_8_8_16]
  omega

@[simp] theorem byte0Of_concat_high24 (a : BitVec 24) (b : Byte) : byte0Of (a ++ b : BitVec 32) = b := by
  apply BitVec.eq_of_toNat_eq
  rw [byte0Of, toNat_extract, toNat_cat_24_8]
  omega

@[simp] theorem indexOf_concat (a : BitVec 26) (i : Index) : indexOf (a ++ i : BitVec 32) = i := by
  apply BitVec.eq_of_toNat_eq
  rw [indexOf, toNat_extract, toNat_cat_26_6]
  omega

theorem word_eq_concat_bytes (d : Word) : d = (byte3Of d ++ byte2Of d ++ byte1Of d ++ byte0Of d : BitVec 32) := by
  apply BitVec.eq_of_toNat_eq
  rw [toNat_cat_8_8_8_8, byte3Of, byte2Of, byte1Of, byte0Of, toNat_extract, toNat_extract, toNat_extract, toNat_extract]
  omega

/-! The layouts of R62, one equation per opcode of R65 with operands. -/

theorem decodeListed_enc1 (a : Byte) (d : Word) : decodeListed (opcodeOf (.enc1 a)) d = .ok (.enc1 (byte2Of d)) := rfl
theorem decodeListed_enc2 (a b : Byte) (d : Word) :
    decodeListed (opcodeOf (.enc2 a b)) d = .ok (.enc2 (byte2Of d) (byte1Of d)) := rfl
theorem decodeListed_enc3 (a b c : Byte) (d : Word) :
    decodeListed (opcodeOf (.enc3 a b c)) d = .ok (.enc3 (byte2Of d) (byte1Of d) (byte0Of d)) := rfl
theorem decodeListed_dstart (len d : Word) : decodeListed (opcodeOf (.dstart len)) d = .ok (.dstart d) := rfl
theorem decodeListed_dgrp (s0 s1 s2 s3 : Byte) (d : Word) :
    decodeListed (opcodeOf (.dgrp s0 s1 s2 s3)) d = .ok (.dgrp (byte3Of d) (byte2Of d) (byte1Of d) (byte0Of d)) := rfl
theorem decodeListed_lutf (idx : Index) (d : Word) :
    decodeListed (opcodeOf (.lutf idx)) d = .ok (.lutf (indexOf d)) := rfl
theorem decodeListed_luti (sym : Byte) (d : Word) :
    decodeListed (opcodeOf (.luti sym)) d = .ok (.luti (byte0Of d)) := rfl
theorem decodeListed_drd (regno : Byte) (d : Word) : decodeListed (opcodeOf (.drd regno)) d =
    if regnoImplemented (byte0Of d) then .ok (.drd (byte0Of d)) else .error .reservedRegister := rfl

/-! The fields of a command's word, and decoding from them (R66). -/

@[simp] theorem cmdOp_encode (i : Instr) : cmdOp (encode i) = opcodeOf i := (Laws.fields_of_concat _ _ _).1
@[simp] theorem cmdRsv_encode (i : Instr) : cmdRsv (encode i) = 0 := (Laws.fields_of_concat _ _ _).2.1
@[simp] theorem cmdData_encode (i : Instr) : cmdData (encode i) = dataOf i := (Laws.fields_of_concat _ _ _).2.2

theorem opcodeOf_mem_listedOps (i : Instr) : opcodeOf i ∈ listedOps := by
  cases i <;> simp [opcodeOf, listedOps]

theorem decode_of_fields {w : CmdWord} {i : Instr} (op : cmdOp w = opcodeOf i) (rsv : cmdRsv w = 0) :
    decode w = decodeListed (opcodeOf i) (cmdData w) := by
  rw [decode, op, if_neg (not_not.2 (opcodeOf_mem_listedOps i)), if_neg (not_not.2 rsv)]

/-- The operands that the layout of R62 reads off a command's own operand field are the command's. -/
theorem decodeListed_dataOf {i : Instr} (wf : i.wf = true) : decodeListed (opcodeOf i) (dataOf i) = .ok i := by
  cases i with
  | enc0 => rfl
  | enc1 a => rw [decodeListed_enc1, dataOf, byte2Of_concat_low16]
  | enc2 a b => rw [decodeListed_enc2, dataOf, byte2Of_concat, byte1Of_concat]
  | enc3 a b c => rw [decodeListed_enc3, dataOf, byte2Of_concat, byte1Of_concat, byte0Of_concat]
  | dstart len => rfl
  | dgrp s0 s1 s2 s3 =>
    rw [decodeListed_dgrp, dataOf, byte3Of_concat, byte2Of_concat, byte1Of_concat, byte0Of_concat]
  | lutf idx => rw [decodeListed_lutf, dataOf, indexOf_concat]
  | luti sym => rw [decodeListed_luti, dataOf, byte0Of_concat_high24]
  | drd regno => rw [decodeListed_drd, dataOf, byte0Of_concat_high24]; exact if_pos wf

/-- Settles O5: the fields of the word of `i`, and each layout of R62 read back. -/
theorem decodeUndoesEncode : Obligations.DecodeUndoesEncode := by
  intro i wf
  rw [decode_of_fields (cmdOp_encode i) (cmdRsv_encode i), cmdData_encode, decodeListed_dataOf wf]

/-! Ignored bits (R62, R67). -/

/-- The bits of a command word that the decoder reads for `i`: `OP`, `RSV` and the operands. -/
def readBits (i : Instr) : CmdWord := (0xFFFFFFFF#32 ++ operandBits i : BitVec 64)

theorem fields_of_ones_concat (m : Word) :
    cmdOp (0xFFFFFFFF#32 ++ m : BitVec 64) = BitVec.allOnes 8 ∧
      cmdRsv (0xFFFFFFFF#32 ++ m : BitVec 64) = BitVec.allOnes 24 ∧ cmdData (0xFFFFFFFF#32 ++ m : BitVec 64) = m := by
  have ones : (0xFFFFFFFF#32 ++ m : BitVec 64) = (BitVec.allOnes 8 ++ BitVec.allOnes 24 ++ m : BitVec 64) := by
    apply BitVec.eq_of_toNat_eq
    rw [toNat_append_add, toNat_cat_8_24_32]
    rfl
  rw [ones]
  exact Laws.fields_of_concat _ _ m

theorem cmdOp_and_readBits (w : CmdWord) (i : Instr) : cmdOp (w &&& readBits i) = cmdOp w := by
  rw [cmdOp, BitVec.extractLsb'_and, ← cmdOp, ← cmdOp, readBits, (fields_of_ones_concat _).1, BitVec.and_allOnes]

theorem cmdRsv_and_readBits (w : CmdWord) (i : Instr) : cmdRsv (w &&& readBits i) = cmdRsv w := by
  rw [cmdRsv, BitVec.extractLsb'_and, ← cmdRsv, ← cmdRsv, readBits, (fields_of_ones_concat _).2.1, BitVec.and_allOnes]

theorem cmdData_and_readBits (w : CmdWord) (i : Instr) :
    cmdData (w &&& readBits i) = cmdData w &&& operandBits i := by
  rw [cmdData, BitVec.extractLsb'_and, ← cmdData, ← cmdData, readBits, (fields_of_ones_concat _).2.2]

/-! A mask that is 1 in the bits of a field leaves the field. -/

theorem extractLsb'_and_of_ones {start len : Nat} {d m : Word} (ones : m.extractLsb' start len = BitVec.allOnes len) :
    (d &&& m).extractLsb' start len = d.extractLsb' start len := by
  rw [BitVec.extractLsb'_and, ones, BitVec.and_allOnes]

theorem byte2Of_and_of_ones {d m : Word} (ones : byte2Of m = 0xFF) : byte2Of (d &&& m) = byte2Of d :=
  extractLsb'_and_of_ones ones
theorem byte1Of_and_of_ones {d m : Word} (ones : byte1Of m = 0xFF) : byte1Of (d &&& m) = byte1Of d :=
  extractLsb'_and_of_ones ones
theorem byte0Of_and_of_ones {d m : Word} (ones : byte0Of m = 0xFF) : byte0Of (d &&& m) = byte0Of d :=
  extractLsb'_and_of_ones ones
theorem indexOf_and_of_ones {d m : Word} (ones : indexOf m = 0x3F) : indexOf (d &&& m) = indexOf d :=
  extractLsb'_and_of_ones ones

/-- The decoder reads of an operand field the operand bits alone. -/
theorem decodeListed_and_operandBits (i : Instr) (d : Word) :
    decodeListed (opcodeOf i) (d &&& operandBits i) = decodeListed (opcodeOf i) d := by
  cases i with
  | enc0 => rfl
  | enc1 a => rw [decodeListed_enc1, decodeListed_enc1, operandBits, byte2Of_and_of_ones rfl]
  | enc2 a b =>
    rw [decodeListed_enc2, decodeListed_enc2, operandBits, byte2Of_and_of_ones rfl, byte1Of_and_of_ones rfl]
  | enc3 a b c =>
    rw [decodeListed_enc3, decodeListed_enc3, operandBits, byte2Of_and_of_ones rfl, byte1Of_and_of_ones rfl,
      byte0Of_and_of_ones rfl]
  | dstart len => exact congrArg (decodeListed 0x20) BitVec.and_allOnes
  | dgrp s0 s1 s2 s3 => exact congrArg (decodeListed 0x21) BitVec.and_allOnes
  | lutf idx => rw [decodeListed_lutf, decodeListed_lutf, operandBits, indexOf_and_of_ones rfl]
  | luti sym => rw [decodeListed_luti, decodeListed_luti, operandBits, byte0Of_and_of_ones rfl]
  | drd regno => rw [decodeListed_drd, decodeListed_drd, operandBits, byte0Of_and_of_ones rfl]

theorem decode_and_readBits {w : CmdWord} {i : Instr} (op : cmdOp w = opcodeOf i) :
    decode (w &&& readBits i) = decode w := by
  rw [decode, decode, cmdOp_and_readBits, cmdRsv_and_readBits, cmdData_and_readBits, op, decodeListed_and_operandBits]

theorem fields_of_decode {w : CmdWord} {i : Instr} (read : decode w = .ok i) :
    cmdOp w = opcodeOf i ∧ cmdRsv w = 0 := by
  rcases decode_cases w with ⟨-, e, rejected⟩ | ⟨legal, i', read', -, op⟩
  · cases read.symm.trans rejected
  · cases read.symm.trans read'
    exact ⟨op.symm, by_contra fun rsv => legal (.inr (.inl rsv))⟩

/-- Settles O7: the words agree on what the decoder reads for `i`, so they decode alike. -/
theorem ignoredBitsChangeNothing : Obligations.IgnoredBitsChangeNothing := by
  intro w v i read agree
  change w &&& readBits i = v &&& readBits i at agree
  obtain ⟨opW, -⟩ := fields_of_decode read
  have opV : cmdOp v = opcodeOf i := by rw [← opW, ← cmdOp_and_readBits v i, ← agree, cmdOp_and_readBits]
  rw [← decode_and_readBits opV, ← agree, decode_and_readBits opW, read]

/-! The operand field that the assembler writes for a command read from `d` is `d` but for the ignored bits (R69). -/

theorem and_concat_bytes (d : Word) (m3 m2 m1 m0 : Byte) :
    d &&& (m3 ++ m2 ++ m1 ++ m0 : BitVec 32) =
      ((byte3Of d &&& m3) ++ (byte2Of d &&& m2) ++ (byte1Of d &&& m1) ++ (byte0Of d &&& m0) : BitVec 32) := by
  conv_lhs => rw [word_eq_concat_bytes d]
  rw [BitVec.and_append, BitVec.and_append, BitVec.and_append]

theorem and_byte0_mask (d : Word) : d &&& 0x000000FF = (0#24 ++ byte0Of d : BitVec 32) := by
  apply BitVec.eq_of_toNat_eq
  rw [toNat_cat_24_8, byte0Of, toNat_extract]
  simpa using Nat.and_two_pow_sub_one_eq_mod d.toNat 8

theorem and_index_mask (d : Word) : d &&& 0x0000003F = (0#26 ++ indexOf d : BitVec 32) := by
  apply BitVec.eq_of_toNat_eq
  rw [toNat_cat_26_6, indexOf, toNat_extract]
  simpa using Nat.and_two_pow_sub_one_eq_mod d.toNat 6

theorem concat_zero16 (a b : Byte) : (a ++ b ++ 0#16 : BitVec 32) = (a ++ b ++ 0#8 ++ 0#8 : BitVec 32) := by
  apply BitVec.eq_of_toNat_eq
  rw [toNat_cat_8_8_16, toNat_cat_8_8_8_8]
  simp
  omega

theorem and_three_bytes_mask (d : Word) :
    d &&& 0x00FFFFFF = (0#8 ++ byte2Of d ++ byte1Of d ++ byte0Of d : BitVec 32) := by
  have masked := and_concat_bytes d 0#8 (BitVec.allOnes 8) (BitVec.allOnes 8) (BitVec.allOnes 8)
  simp only [BitVec.and_zero, BitVec.and_allOnes] at masked
  exact masked

theorem and_two_bytes_mask (d : Word) :
    d &&& 0x00FFFF00 = (0#8 ++ byte2Of d ++ byte1Of d ++ 0#8 : BitVec 32) := by
  have masked := and_concat_bytes d 0#8 (BitVec.allOnes 8) (BitVec.allOnes 8) 0#8
  simp only [BitVec.and_zero, BitVec.and_allOnes] at masked
  exact masked

theorem and_byte2_mask (d : Word) : d &&& 0x00FF0000 = (0#8 ++ byte2Of d ++ 0#16 : BitVec 32) := by
  have masked := and_concat_bytes d 0#8 (BitVec.allOnes 8) 0#8 0#8
  rw [concat_zero16]
  simp only [BitVec.and_zero, BitVec.and_allOnes] at masked
  exact masked

theorem dataOf_of_decodeListed {i : Instr} {d : Word} (read : decodeListed (opcodeOf i) d = .ok i) :
    dataOf i = d &&& operandBits i := by
  cases i with
  | enc0 => exact BitVec.and_zero.symm
  | enc1 a =>
    rw [decodeListed_enc1, Except.ok.injEq, Instr.enc1.injEq] at read
    rw [dataOf, operandBits, and_byte2_mask, read]
  | enc2 a b =>
    rw [decodeListed_enc2, Except.ok.injEq, Instr.enc2.injEq] at read
    rw [dataOf, operandBits, and_two_bytes_mask, read.1, read.2]
  | enc3 a b c =>
    rw [decodeListed_enc3, Except.ok.injEq, Instr.enc3.injEq] at read
    rw [dataOf, operandBits, and_three_bytes_mask, read.1, read.2.1, read.2.2]
  | dstart len =>
    rw [decodeListed_dstart, Except.ok.injEq, Instr.dstart.injEq] at read
    exact read ▸ BitVec.and_allOnes.symm
  | dgrp s0 s1 s2 s3 =>
    rw [decodeListed_dgrp, Except.ok.injEq, Instr.dgrp.injEq] at read
    obtain ⟨rfl, rfl, rfl, rfl⟩ := read
    exact (word_eq_concat_bytes d).symm.trans BitVec.and_allOnes.symm
  | lutf idx =>
    rw [decodeListed_lutf, Except.ok.injEq, Instr.lutf.injEq] at read
    rw [dataOf, operandBits, and_index_mask, read]
  | luti sym =>
    rw [decodeListed_luti, Except.ok.injEq, Instr.luti.injEq] at read
    rw [dataOf, operandBits, and_byte0_mask, read]
  | drd regno =>
    rw [decodeListed_drd] at read
    split at read
    · rw [Except.ok.injEq, Instr.drd.injEq] at read
      rw [dataOf, operandBits, and_byte0_mask, read]
    · cases read

theorem word_eq_of_fields {w v : CmdWord} (op : cmdOp w = cmdOp v) (rsv : cmdRsv w = cmdRsv v)
    (data : cmdData w = cmdData v) : w = v := by
  rw [cmdOp, cmdOp, ← BitVec.toNat_inj, toNat_extract, toNat_extract] at op
  rw [cmdRsv, cmdRsv, ← BitVec.toNat_inj, toNat_extract, toNat_extract] at rsv
  rw [cmdData, cmdData, ← BitVec.toNat_inj, toNat_extract, toNat_extract] at data
  apply BitVec.eq_of_toNat_eq
  omega

/-- Settles O6: the word of `i` has the fields of `w` with the ignored bits cleared. -/
theorem encodeUndoesDecode : Obligations.EncodeUndoesDecode := by
  intro w i read
  obtain ⟨op, rsv⟩ := fields_of_decode read
  have data : dataOf i = cmdData w &&& operandBits i := by
    rw [decode_of_fields op rsv] at read
    exact dataOf_of_decodeListed read
  have word : encode i = w &&& readBits i := by
    apply word_eq_of_fields
    · rw [cmdOp_encode, cmdOp_and_readBits, op]
    · rw [cmdRsv_encode, cmdRsv_and_readBits, rsv]
    · rw [cmdData_encode, cmdData_and_readBits, data]
  exact ⟨wf_of_decode read, word⟩

/-- Settles O8: each word is decoded. -/
theorem specWordsDecode : Obligations.SpecWordsDecode := by
  unfold Obligations.SpecWordsDecode
  decide

end Sys2Proof
end

section
/-! The assembler reads what the disassembler prints (30_encoding.md R69; log entry 15). -/

namespace Sys2Proof.Machine

/-! ## Numbers -/

theorem digitValue_hexDigit : ∀ d, d < 16 → digitValue (hexDigit d) = some d := by decide

theorem wordChar_hexDigit : ∀ d, d < 16 → wordChar (hexDigit d) = true := by decide

theorem readDigits_append (base : Nat) (xs ys : List Char) (acc : Nat) :
    readDigits base (xs ++ ys) acc = (readDigits base xs acc).bind (readDigits base ys) := by
  induction xs generalizing acc with
  | nil => rfl
  | cons x xs ih =>
    simp only [List.cons_append, readDigits]
    cases digitValue x with
    | none => rfl
    | some d =>
      by_cases small : d < base
      · simp only [small, if_true]
        exact ih _
      · simp [small]

theorem readDigits_hexDigit {d : Nat} (small : d < 16) (acc : Nat) :
    readDigits 16 [hexDigit d] acc = some (acc * 16 + d) := by
  simp [readDigits, digitValue_hexDigit d small, small]

theorem readDigits_hexDigits (k n acc : Nat) :
    readDigits 16 (hexDigits k n) acc = some (acc * 16 ^ k + n % 16 ^ k) := by
  induction k generalizing n with
  | zero => simp [hexDigits, readDigits, Nat.mod_one]
  | succ k ih =>
    rw [hexDigits, readDigits_append, ih, Option.bind_some, readDigits_hexDigit (Nat.mod_lt _ (by omega)),
      Option.some_inj, pow_succ', Nat.mod_mul]
    ring

theorem hexDigits_eq_cons (k n : Nat) : ∃ d ds, hexDigits (k + 1) n = d :: ds :=
  List.exists_cons_of_ne_nil (by simp [hexDigits])

theorem readNumber_hexLiteral {k n : Nat} (fits : n < 16 ^ (k + 1)) : readNumber (hexLiteral (k + 1) n) = some n := by
  obtain ⟨d, ds, digits⟩ := hexDigits_eq_cons k n
  rw [hexLiteral, digits, readNumber, ← digits, readDigits_hexDigits, Nat.mod_eq_of_lt fits, Nat.zero_mul, Nat.zero_add]

theorem readBelow_hexLiteral {k n bound : Nat} (fits : n < 16 ^ (k + 1)) (below : n < bound) :
    readBelow bound (.text (hexLiteral (k + 1) n)) = some n := by
  rw [readBelow, readNumber_hexLiteral fits, Option.bind_some, if_pos below]

theorem readByte_printByte (b : Byte) : readByte (.text (printByte b)) = some b := by
  rw [readByte, printByte, readNumber_hexLiteral (k := 1) b.isLt, Option.bind_some, if_pos b.isLt, BitVec.ofNat_toNat,
    BitVec.setWidth_eq]

/-! ## Words between spaces and commas -/

/-- An operand that is read as far as its characters go: a number or a name. -/
structure IsWord (w : List Char) : Prop where
  chars : ∀ c ∈ w, wordChar c = true
  head : ∃ c cs, w = c :: cs ∧ c ≠ '\'' ∧ c ≠ '"'

theorem isWord_hexLiteral (k n : Nat) : IsWord (hexLiteral k n) := by
  have digits : ∀ c ∈ hexDigits k n, wordChar c = true := by
    induction k generalizing n with
    | zero => simp [hexDigits]
    | succ k ih =>
      intro c mem
      rw [hexDigits, List.mem_append, List.mem_singleton] at mem
      rcases mem with mem | rfl
      · exact ih _ c mem
      · exact wordChar_hexDigit _ (Nat.mod_lt _ (by omega))
  refine ⟨fun c mem => ?_, _, _, rfl, by decide, by decide⟩
  rw [hexLiteral, List.mem_cons, List.mem_cons] at mem
  rcases mem with rfl | rfl | mem
  · rfl
  · rfl
  · exact digits c mem

/-- What follows a word: nothing, or a character that ends it. -/
def EndsWord (rest : List Char) : Prop := ∀ c ∈ rest.head?, wordChar c = false

theorem takeWhile_word {w rest : List Char} (chars : ∀ c ∈ w, wordChar c = true) (ends : EndsWord rest) :
    (w ++ rest).takeWhile wordChar = w ∧ (w ++ rest).dropWhile wordChar = rest := by
  rw [List.takeWhile_append_of_pos chars, List.dropWhile_append_of_pos chars]
  cases rest with
  | nil => simp
  | cons c cs =>
    have ends : wordChar c = false := ends c rfl
    simp [ends]

theorem readOperand_word {w rest : List Char} (word : IsWord w) (ends : EndsWord rest) :
    readOperand (w ++ rest) = some (.text w, rest) := by
  obtain ⟨taken, dropped⟩ := takeWhile_word word.chars ends
  obtain ⟨c, cs, rfl, noLiteral, noGroup⟩ := word.head
  rw [List.cons_append] at taken dropped ⊢
  unfold readOperand
  split
  · rename_i literal
    exact absurd (List.cons.inj literal).1 noLiteral
  · rename_i group
    exact absurd (List.cons.inj group).1 noGroup
  · rw [taken, dropped]
    rfl

theorem skipSpaces_word {w : List Char} (word : IsWord w) (rest : List Char) : skipSpaces (w ++ rest) = w ++ rest := by
  obtain ⟨c, cs, rfl, -⟩ := word.head
  have noSpace : c ≠ ' ' := by
    rintro rfl
    cases word.chars ' ' (List.mem_cons_self ..)
  simp [skipSpaces, noSpace]

theorem readOperands_space (n : Nat) (cs : List Char) : readOperands n (' ' :: cs) = readOperands n cs := by
  cases n <;> rfl

theorem readOperands_last {cs : List Char} {o : AsmOperand} (read : readOperand (skipSpaces cs) = some (o, []))
    (n : Nat) : readOperands (n + 1) cs = some [o] := by
  rw [readOperands, read]
  rfl

theorem readOperands_comma {cs rest : List Char} {o : AsmOperand}
    (read : readOperand (skipSpaces cs) = some (o, ',' :: rest)) (n : Nat) :
    readOperands (n + 1) cs = (readOperands n rest).map (o :: ·) := by
  rw [readOperands, read]
  rfl

/-- Printed words are read back as the operands they are. -/
theorem readOperands_joinOperands {ws : List (List Char)} (words : ∀ w ∈ ws, IsWord w) (nonempty : ws ≠ []) {n : Nat}
    (few : ws.length ≤ n) : readOperands n (joinOperands ws) = some (ws.map .text) := by
  induction ws generalizing n with
  | nil => exact absurd rfl nonempty
  | cons w ws ih =>
    have word := words w List.mem_cons_self
    obtain ⟨m, rfl⟩ : ∃ m, n = m + 1 := Nat.exists_eq_succ_of_ne_zero (by rintro rfl; simp at few)
    cases ws with
    | nil =>
      have read := readOperand_word word (rest := []) (by simp [EndsWord])
      rw [← skipSpaces_word word, List.append_nil] at read
      exact readOperands_last read m
    | cons w' ws =>
      have read := readOperand_word word (rest := ',' :: ' ' :: joinOperands (w' :: ws)) (by simp [EndsWord, wordChar])
      rw [← skipSpaces_word word] at read
      have text : joinOperands (w :: w' :: ws) = w ++ ',' :: ' ' :: joinOperands (w' :: ws) := by simp [joinOperands]
      rw [text, readOperands_comma read, readOperands_space,
        ih (fun v mem => words v (List.mem_cons_of_mem _ mem)) (by simp) (Nat.le_of_succ_le_succ few)]
      rfl

/-! ## Quoted groups -/

theorem char_toNat_ofNat (b : Byte) : (Char.ofNat b.toNat).toNat = b.toNat := by
  have valid : b.toNat.isValidChar := .inl (by omega)
  simp [Char.ofNat, valid]

theorem printable_of_quotable {b : Byte} (h : quotable b = true) : printable (Char.ofNat b.toNat) = true := by
  simp only [quotable, Bool.and_eq_true] at h
  simp only [printable, char_toNat_ofNat, Bool.and_eq_true]
  exact h.1.1

theorem readByte_chr {b : Byte} (h : quotable b = true) : readByte (.chr (Char.ofNat b.toNat)) = some b := by
  rw [readByte, if_pos (printable_of_quotable h), char_toNat_ofNat, BitVec.ofNat_toNat, BitVec.setWidth_eq]

theorem readOperands_quoted {c0 c1 c2 c3 : Char} (all : [c0, c1, c2, c3].all printable = true) (n : Nat) :
    readOperands (n + 1) ['"', c0, c1, c2, c3, '"'] = some [.quoted c0 c1 c2 c3] := by
  have read : readOperand ['"', c0, c1, c2, c3, '"'] = some (.quoted c0 c1 c2 c3, []) := by
    rw [readOperand]
    exact if_pos all
  exact readOperands_last (cs := ['"', c0, c1, c2, c3, '"']) read n

/-! ## Lines -/

theorem isWord_mnemonicOf (i : Instr) : IsWord (mnemonicOf i) := by
  have chars : (mnemonicOf i).all wordChar = true := by cases i <;> rfl
  refine ⟨List.all_eq_true.1 chars, ?_⟩
  cases i <;> exact ⟨_, _, rfl, by decide, by decide⟩

theorem upperChar_mnemonicOf (i : Instr) : (mnemonicOf i).map upperChar = mnemonicOf i := by
  cases i <;> rfl

theorem mnemonicOf_ne_word64Name (i : Instr) : mnemonicOf i ≠ word64Name := by
  cases i <;> simp [mnemonicOf, word64Name]

theorem assemble_line {i : Instr} {rest : List Char} {os : List AsmOperand} (noSpace : skipSpaces rest = rest)
    (nonempty : rest ≠ []) (operands : readOperands 4 rest = some os) :
    assemble (mnemonicOf i ++ [' '] ++ rest) = (assembleInstr (mnemonicOf i) os).map encode := by
  have word := isWord_mnemonicOf i
  obtain ⟨taken, dropped⟩ := takeWhile_word (rest := ' ' :: rest) word.chars (by simp [EndsWord, wordChar])
  have skip : skipSpaces (' ' :: rest) = rest := noSpace
  rw [List.append_assoc, List.singleton_append, assemble, skipSpaces_word word]
  simp only [taken, dropped, skip, upperChar_mnemonicOf, if_neg nonempty, operands, if_neg (mnemonicOf_ne_word64Name i)]

/-- A command printed with operands that are words. -/
theorem assemble_words {i : Instr} {w : List Char} {ws : List (List Char)} (printed : printOperands i = w :: ws)
    (words : ∀ v ∈ w :: ws, IsWord v) (few : (w :: ws).length ≤ 4)
    (read : assembleInstr (mnemonicOf i) ((w :: ws).map .text) = some i) :
    assemble (printInstr i) = some (encode i) := by
  have word := words w List.mem_cons_self
  obtain ⟨more, text⟩ : ∃ more, joinOperands (w :: ws) = w ++ more := by
    cases ws with
    | nil => exact ⟨[], (List.append_nil w).symm⟩
    | cons w' ws => exact ⟨_, List.append_assoc ..⟩
  have noSpace : skipSpaces (joinOperands (w :: ws)) = joinOperands (w :: ws) := by
    rw [text, skipSpaces_word word]
  have notEmpty : joinOperands (w :: ws) ≠ [] := by
    obtain ⟨c, cs, rfl, -⟩ := word.head
    simp [text]
  have line : printInstr i = mnemonicOf i ++ [' '] ++ joinOperands (w :: ws) := by
    rw [printInstr, printed]
  rw [line, assemble_line noSpace notEmpty (readOperands_joinOperands words (by simp) few), read]
  rfl

/-- A command printed with its bytes in hexadecimal. -/
theorem assemble_bytes {i : Instr} {b : Byte} {bs : List Byte} (printed : printOperands i = (b :: bs).map printByte)
    (few : (b :: bs).length ≤ 4)
    (read : assembleInstr (mnemonicOf i) ((b :: bs).map fun b => .text (printByte b)) = some i) :
    assemble (printInstr i) = some (encode i) := by
  have words : ∀ v ∈ (b :: bs).map printByte, IsWord v := by
    intro v mem
    obtain ⟨c, -, rfl⟩ := List.mem_map.1 mem
    exact isWord_hexLiteral 2 c.toNat
  refine assemble_words printed words (by simpa using few) ?_
  rw [← List.map_cons, List.map_map]
  exact read

/-- A command printed with one number in hexadecimal. -/
theorem assemble_number {i : Instr} {k n : Nat} (printed : printOperands i = [hexLiteral k n])
    (read : assembleInstr (mnemonicOf i) [.text (hexLiteral k n)] = some i) :
    assemble (printInstr i) = some (encode i) := by
  refine assemble_words printed (fun v mem => ?_) (by simp) read
  rw [List.mem_singleton.1 mem]
  exact isWord_hexLiteral k n

theorem assemble_dgrp_quoted {s0 s1 s2 s3 : Byte} (all : [s0, s1, s2, s3].all quotable = true) :
    assemble (printInstr (.dgrp s0 s1 s2 s3)) = some (encode (.dgrp s0 s1 s2 s3)) := by
  have line : printInstr (.dgrp s0 s1 s2 s3) = mnemonicOf (.dgrp s0 s1 s2 s3) ++ [' '] ++
      ['"', Char.ofNat s0.toNat, Char.ofNat s1.toNat, Char.ofNat s2.toNat, Char.ofNat s3.toNat, '"'] := by
    rw [printInstr, printOperands, if_pos all]
    rfl
  simp only [List.all_cons, List.all_nil, Bool.and_true, Bool.and_eq_true] at all
  obtain ⟨h0, h1, h2, h3⟩ := all
  have operands := readOperands_quoted (c0 := Char.ofNat s0.toNat) (c1 := Char.ofNat s1.toNat)
    (c2 := Char.ofNat s2.toNat) (c3 := Char.ofNat s3.toNat) (by simp [printable_of_quotable, h0, h1, h2, h3]) 3
  rw [line, assemble_line rfl (by simp) operands]
  simp [assembleInstr, mnemonicOf, readBytes4, readByte_chr, h0, h1, h2, h3]

theorem assemble_drd {regno : Byte} (implemented : regnoImplemented regno = true) :
    assemble (printInstr (.drd regno)) = some (encode (.drd regno)) := by
  have four : regno = 0 ∨ regno = 1 ∨ regno = 2 ∨ regno = 3 := by
    rw [regnoImplemented, decide_eq_true_iff] at implemented
    bv_omega
  rcases four with rfl | rfl | rfl | rfl <;> rfl

/-- Settles O9: the words or the quoted group of each printed command, and each operand read back. -/
theorem assembleUndoesPrint : Obligations.AssembleUndoesPrint := by
  intro i wf
  cases i with
  | enc0 => rfl
  | enc1 a =>
    exact assemble_bytes (b := a) (bs := []) rfl (by simp) (by simp [assembleInstr, mnemonicOf, readByte_printByte])
  | enc2 a b =>
    exact assemble_bytes (b := a) (bs := [b]) rfl (by simp) (by simp [assembleInstr, mnemonicOf, readByte_printByte])
  | enc3 a b c =>
    exact assemble_bytes (b := a) (bs := [b, c]) rfl (by simp) (by simp [assembleInstr, mnemonicOf, readByte_printByte])
  | dstart len =>
    have read : readBelow 4294967296 (.text (hexLiteral 8 len.toNat)) = some len.toNat :=
      readBelow_hexLiteral (k := 7) len.isLt len.isLt
    exact assemble_number rfl (by simp [assembleInstr, mnemonicOf, read])
  | dgrp s0 s1 s2 s3 =>
    by_cases all : [s0, s1, s2, s3].all quotable = true
    · exact assemble_dgrp_quoted all
    · exact assemble_bytes (b := s0) (bs := [s1, s2, s3]) (if_neg all) (by simp)
        (by simp [assembleInstr, mnemonicOf, readBytes4, readByte_printByte])
  | lutf idx =>
    have read : readBelow 64 (.text (hexLiteral 2 idx.toNat)) = some idx.toNat :=
      readBelow_hexLiteral (k := 1) (by omega) idx.isLt
    exact assemble_number rfl (by simp [assembleInstr, mnemonicOf, read])
  | luti sym =>
    exact assemble_bytes (b := sym) (bs := []) rfl (by simp) (by simp [assembleInstr, mnemonicOf, readByte_printByte])
  | drd regno => exact assemble_drd wf

end Sys2Proof.Machine
end

section
/-! Every command (10_state.md R38, 20_memory.md R52, R55): it answers once, touches no port, and what it does depends
on the five registers alone. -/

namespace Sys2Proof.Machine

theorem SameRegisters.refl (s : State) : SameRegisters s s := ⟨rfl, rfl, rfl, rfl, rfl⟩

theorem SameRegisters.symm {s t : State} (h : SameRegisters s t) : SameRegisters t s :=
  ⟨h.dstate.symm, h.drem.symm, h.dpos.symm, h.derr.symm, h.derrpos.symm⟩

theorem SameRegisters.trans {s t u : State} (h : SameRegisters s t) (k : SameRegisters t u) : SameRegisters s u :=
  ⟨h.dstate.trans k.dstate, h.drem.trans k.drem, h.dpos.trans k.dpos, h.derr.trans k.derr, h.derrpos.trans k.derrpos⟩

/-- `t` is `s` with the one more response `r`, registers of its own, and the ports as they were. -/
structure Answers (s t : State) (r : RspWord) : Prop where
  pending : t.pending = s.pending ++ [⟨r, Config.extraLatency⟩]
  ports : SamePorts s t

theorem answers_respond (st : Status) (n : BitVec 3) (l : Bool) (d : Word) (s : State) :
    Answers s (respond st n l d s) (packRsp st n l d) :=
  ⟨rfl, rfl, rfl, rfl, rfl, rfl, rfl, rfl⟩

/-- The two results are answers of the same word that leave the same registers. -/
def AnswersAlike (s s' : State) (o o' : Result) : Prop :=
  ∃ t t' r, o = .next t ∧ o' = .next t' ∧ Answers s t r ∧ Answers s' t' r ∧ SameRegisters t t'

theorem answersAlike_respond {s s' : State} (h : SameRegisters s s') (st : Status) (n : BitVec 3) (l : Bool)
    (d : Word) : AnswersAlike s s' (.next (respond st n l d s)) (.next (respond st n l d s')) :=
  ⟨_, _, _, rfl, rfl, answers_respond .., answers_respond ..,
    ⟨h.dstate, h.drem, h.dpos, h.derr, h.derrpos⟩⟩

theorem answersAlike_raiseDecodeError {s s' : State} (h : SameRegisters s s') (e : DErr) (pos : Word) :
    AnswersAlike s s' (.next (raiseDecodeError e pos s)) (.next (raiseDecodeError e pos s')) :=
  ⟨_, _, _, rfl, rfl, ⟨rfl, rfl, rfl, rfl, rfl, rfl, rfl, rfl⟩, ⟨rfl, rfl, rfl, rfl, rfl, rfl, rfl, rfl⟩,
    ⟨rfl, h.drem, h.dpos, rfl, rfl⟩⟩

theorem statusReg_congr {s s' : State} (h : SameRegisters s s') (regno : Byte) :
    statusReg regno s = statusReg regno s' := by
  rw [statusReg, statusReg, dstat, dstat, h.dstate, h.derr, h.derrpos, h.dpos, h.drem]

theorem execDrd_answersAlike {s s' : State} (h : SameRegisters s s') (regno : Byte) :
    AnswersAlike s s' (execDrd regno s) (execDrd regno s') := by
  rw [execDrd, execDrd, statusReg_congr h]
  cases statusReg regno s' with
  | some v => exact answersAlike_respond h _ _ _ _
  | none => exact answersAlike_respond h _ _ _ _

theorem execDstart_answersAlike (s s' : State) (len : Word) :
    AnswersAlike s s' (execDstart len s) (execDstart len s') := by
  unfold execDstart
  split_ifs <;> exact ⟨_, _, _, rfl, rfl, ⟨rfl, rfl, rfl, rfl, rfl, rfl, rfl, rfl⟩,
    ⟨rfl, rfl, rfl, rfl, rfl, rfl, rfl, rfl⟩, ⟨rfl, rfl, rfl, rfl, rfl⟩⟩

theorem exec_dgrp_of_inactive {s : State} (inactive : s.dstate ≠ .active) (s0 s1 s2 s3 : Byte) :
    exec (.dgrp s0 s1 s2 s3) s = .next (raiseNoStream s) := by
  rw [exec, execDgrp, if_pos inactive]

theorem exec_dgrp_of_badPadding {s0 s1 s2 s3 : Byte} {s : State} (active : s.dstate = .active)
    (verdict : validate (decide (s.drem = 1)) (inv s0).1 (inv s1).1 (inv s2).1 (inv s3).1 = .badPadding) :
    exec (.dgrp s0 s1 s2 s3) s = .next (raiseDecodeError .invalidPadding 0 s) := by
  rw [exec, execDgrp, if_neg (not_not.2 active)]
  simp only [verdict]

theorem exec_dgrp_answersAlike {s s' : State} (h : SameRegisters s s') (s0 s1 s2 s3 : Byte) :
    AnswersAlike s s' (exec (.dgrp s0 s1 s2 s3) s) (exec (.dgrp s0 s1 s2 s3) s') := by
  by_cases active' : s'.dstate = .active
  swap
  · rw [exec_dgrp_of_inactive (h.dstate ▸ active'), exec_dgrp_of_inactive active']
    exact answersAlike_respond h _ _ _ _
  have active : s.dstate = .active := h.dstate.trans active'
  cases verdict : validate (decide (s.drem = 1)) (inv s0).1 (inv s1).1 (inv s2).1 (inv s3).1 with
  | unexpected j =>
    rw [exec_dgrp_of_unexpected active verdict, exec_dgrp_of_unexpected active' (h.drem ▸ verdict), h.dpos]
    exact answersAlike_raiseDecodeError h _ _
  | badPadding =>
    rw [exec_dgrp_of_badPadding active verdict, exec_dgrp_of_badPadding active' (h.drem ▸ verdict)]
    exact answersAlike_raiseDecodeError h _ _
  | accepted npad =>
    rw [exec_dgrp_of_accepted active verdict, exec_dgrp_of_accepted active' (h.drem ▸ verdict), h.drem]
    exact ⟨_, _, _, rfl, rfl, ⟨acceptGroup_pending .., rfl, rfl, rfl, rfl, rfl, rfl, rfl⟩,
      ⟨acceptGroup_pending .., rfl, rfl, rfl, rfl, rfl, rfl, rfl⟩,
      ⟨by simp [h.dstate], by simp [h.drem], by simp [h.dpos], h.derr, h.derrpos⟩⟩

/-- What a command answers and leaves is a function of the registers (20_memory.md R52). -/
theorem exec_answersAlike (i : Instr) {s s' : State} (h : SameRegisters s s') :
    AnswersAlike s s' (exec i s) (exec i s') := by
  cases i with
  | dstart len => exact execDstart_answersAlike s s' len
  | dgrp s0 s1 s2 s3 => exact exec_dgrp_answersAlike h s0 s1 s2 s3
  | drd regno => exact execDrd_answersAlike h regno
  | _ => exact answersAlike_respond h _ _ _ _

theorem runWord_answersAlike (w : CmdWord) {s s' : State} (h : SameRegisters s s') :
    AnswersAlike s s' (runWord w s) (runWord w s') := by
  unfold runWord
  cases decode w with
  | ok i => exact exec_answersAlike i h
  | error e => exact answersAlike_respond h _ _ _ _

theorem exec_answers (i : Instr) (s : State) : ∃ t r, exec i s = .next t ∧ Answers s t r := by
  obtain ⟨t, -, r, run, -, answers, -, -⟩ := exec_answersAlike i (SameRegisters.refl s)
  exact ⟨t, r, run, answers⟩

theorem runWord_answers {w : CmdWord} {s t : State} (run : runWord w s = .next t) : ∃ r, Answers s t r := by
  obtain ⟨t', -, r, run', -, answers, -, -⟩ := runWord_answersAlike w (SameRegisters.refl s)
  cases run.symm.trans run'
  exact ⟨r, answers⟩

/-- Settles O32: `exec_answers`. -/
theorem everyCommandAnswersOnce : Obligations.EveryCommandAnswersOnce := by
  intro i s
  obtain ⟨t, r, run, pending, ports⟩ := exec_answers i s
  exact ⟨t, r, run, pending, ports⟩

/-! The registers after a command that is no `DSTART` and no `DGRP`. -/

theorem exec_keepsRegisters {i : Instr} {s t : State} (keeps : writesRegisters i = false) (run : exec i s = .next t) :
    SameRegisters s t := by
  rcases exec_cases_of_keepsRegisters keeps s with ⟨d, run'⟩ | ⟨-, run'⟩ <;> cases run.symm.trans run' <;>
    exact (SameRegisters.refl s).answering _

/-- Settles O31: such a command only responds, and so does the raise of `IllegalCommand`. -/
theorem onlyStreamCommandsWriteRegisters : Obligations.OnlyStreamCommandsWriteRegisters := by
  intro w s t run keeps
  rcases runWord_cases w s with ⟨i, read, run'⟩ | ⟨e, -, run'⟩
  · exact exec_keepsRegisters (keeps i read) (run'.symm.trans run)
  · cases run.symm.trans run'
    exact (SameRegisters.refl s).answering _

/-- Settles O56: no register has such a number, so the read raises `IllegalCommand`. -/
theorem drdUnimplementedRegister : Obligations.DrdUnimplementedRegister := by
  intro regno s reserved
  have unimplemented : statusReg regno s = none := by
    rw [← Option.not_isSome_iff_eq_none, statusReg_isSome_iff, regnoImplemented, decide_eq_true_iff]
    omega
  rw [exec, execDrd, unimplemented, raiseIllegalCommand_eq_answering]

end Sys2Proof.Machine
end

section
/-! One step (30_encoding.md R60, 70_reset_and_hazards.md R115 to R117): what an edge does to the ports, to the queue of
responses and to the registers. -/

namespace Sys2Proof.Machine

/-! What a step is, by the kind of the edge. -/

theorem step_of_resetEdge {s : State} (reset : (drivenEdge s).rstN = false) : step s = .next (resetEdge s) := by
  rw [step, atEdge, reset]
  rfl

theorem step_of_waits {s : State} (noReset : (drivenEdge s).rstN = true) (afterReset : s.sawReset = true)
    (kept : breaksOffer s (drivenEdge s) = false) (waits : accepts s (drivenEdge s) = false) :
    step s = .next (waitEdge (drivenEdge s) s) := by
  simp [step, atEdge, noReset, afterReset, kept, waits]

theorem accepts_iff {s : State} {e : Edge} (afterReset : s.sawReset = true) :
    accepts s e = true ↔
      e.rstN = true ∧ e.cmdValid = true ∧ s.stall = 0 ∧ s.pending.length < Config.cmdDepth := by
  rw [← cmdReady_iff s afterReset, accepts, Bool.and_eq_true, Bool.and_eq_true, and_assoc]
  exact and_congr_right fun noReset => by rw [noReset]

theorem breaksOffer_iff (s : State) (e : Edge) :
    breaksOffer s e = true ↔ ∃ w, s.offer = some w ∧ ¬ (e.cmdValid = true ∧ e.cmdWord = w) := by
  unfold breaksOffer
  cases s.offer <;> simp [imp_iff_not_or]

/-- A step after a reset at an edge without one: the response channel's part, and one response more when a command is
accepted. -/
theorem step_responses {s t : State} (afterReset : s.sawReset = true) (noReset : (drivenEdge s).rstN = true)
    (run : step s = .next t) :
    t.taken = (responseEdge (drivenEdge s) s).taken ∧
      ((accepts s (drivenEdge s) = true ∧
          ∃ r, t.pending = (responseEdge (drivenEdge s) s).pending ++ [⟨r, Config.extraLatency⟩]) ∨
        t.pending = (responseEdge (drivenEdge s) s).pending) ∧
      t.sawReset = true := by
  rcases step_cases run with
    ⟨reset, -⟩ | ⟨-, beforeReset, -⟩ | ⟨-, -, -, accepted, run'⟩ | ⟨-, -, -, -, rfl⟩
  · cases reset.symm.trans noReset
  · cases beforeReset.symm.trans afterReset
  · obtain ⟨r, pending, ports⟩ := runWord_answers run'
    rw [acceptEdge_pending] at pending
    exact ⟨ports.taken.symm, .inl ⟨accepted, r, pending⟩, by rw [← ports.sawReset, acceptEdge_sawReset, afterReset]⟩
  · exact ⟨rfl, .inr rfl, by rw [waitEdge_sawReset, afterReset]⟩

/-! Reset (R115). -/

/-- Settles O35: the step is `resetEdge`. -/
theorem resetEdgeClearsBlock : Obligations.ResetEdgeClearsBlock := by
  intro s reset
  refine ⟨resetEdge s, step_of_resetEdge reset, ⟨rfl, rfl, rfl, rfl, rfl⟩, rfl, rfl, rfl, rfl, rfl, ?ready, ?during⟩
  case ready => exact fun noStall => (cmdReady_iff (resetEdge s) rfl).2 ⟨noStall, Nat.succ_pos _⟩
  case during => exact fun afterReset => ⟨by simp [cmdReady, afterReset], by simp [rspValid, afterReset]⟩

/-! The command channel (R60). -/

/-- Settles O36: `step_of_accepts` with the word read, and what `acceptEdge` leaves. -/
theorem stepRunsAcceptedCommand : Obligations.StepRunsAcceptedCommand := by
  intro s i afterReset kept accepted read
  obtain ⟨noReset, -⟩ := (accepts_iff afterReset).1 accepted
  exact ⟨by rw [step_of_accepts afterReset kept accepted, runWord_of_decode read], sameRegisters_acceptEdge _ s,
    acceptEdge_accepted _ s, acceptEdge_offer _ s, responseEdge_answers _ s afterReset noReset⟩

theorem sameRegisters_waitEdge (e : Edge) (s : State) : SameRegisters s (waitEdge e s) := by
  constructor <;> simp

/-- Settles O38: without `cmd_ready` the step is `waitEdge`. -/
theorem commandWaitsWhileNotReady : Obligations.CommandWaitsWhileNotReady := by
  intro s afterReset noReset valid kept notReady
  have waits : accepts s (drivenEdge s) = false := by simp [accepts, noReset, notReady]
  exact ⟨_, step_of_waits noReset afterReset kept waits, by rw [waitEdge_offer, if_pos valid], waitEdge_accepted _ s,
    sameRegisters_waitEdge _ s, responseEdge_answers _ s afterReset noReset⟩

/-- Settles O39: both clauses are `cmdReady_iff`. -/
theorem readyIsLowAtDepth : Obligations.ReadyIsLowAtDepth := by
  intro s afterReset
  refine ⟨fun atDepth => ?_, fun belowDepth noStall => (cmdReady_iff s afterReset).2 ⟨noStall, belowDepth⟩⟩
  rw [← Bool.not_eq_true, cmdReady_iff s afterReset]
  omega

/-! The response channel (R60). -/

theorem rspWord_of_head {s : State} {p : Pending} {ps : List Pending} (afterReset : s.sawReset = true)
    (queue : s.pending = p :: ps) (ready : p.wait = 0) : rspWord s true = p.rsp := by
  have valid : rspValid s true = true := (rspValid_iff s afterReset).2 ⟨p, ps, queue, ready⟩
  rw [rspWord, queue]
  exact if_pos valid

/-- Settles O40: the oldest response stays the oldest, and its wait stays 0. -/
theorem offeredResponseIsStable : Obligations.OfferedResponseIsStable := by
  intro s t afterReset noReset notReady valid run
  obtain ⟨p, ps, queue, ready⟩ := (rspValid_iff s afterReset).1 valid
  obtain ⟨taken, pending, afterReset'⟩ := step_responses afterReset noReset run
  rcases responseEdge_cases (drivenEdge s) s afterReset noReset with
    ⟨-, -, -, -, ready', -⟩ | ⟨-, pendingKept, takenKept⟩
  · cases notReady.symm.trans ready'
  have queue' : ∃ qs, t.pending = p.age :: qs := by
    rw [pendingKept, queue] at pending
    rcases pending with ⟨-, r, pending⟩ | pending
    · exact ⟨_, pending⟩
    · exact ⟨_, pending⟩
  obtain ⟨qs, queue'⟩ := queue'
  have ready' : p.age.wait = 0 := by rw [Pending.age_wait, ready]
  exact ⟨(rspValid_iff t afterReset').2 ⟨_, _, queue', ready'⟩,
    by rw [rspWord_of_head afterReset' queue' ready', rspWord_of_head afterReset queue ready, Pending.age_rsp],
    taken.trans takenKept⟩

/-- Settles O41: the two cases of the response channel. -/
theorem takenResponseIsOldest : Obligations.TakenResponseIsOldest := by
  intro s t afterReset noReset run
  obtain ⟨taken, -, -⟩ := step_responses afterReset noReset run
  rcases responseEdge_cases (drivenEdge s) s afterReset noReset with
    ⟨p, ps, queue, wait, ready, -, takenOne⟩ | ⟨none, -, takenKept⟩
  · have valid : rspValid s true = true := (rspValid_iff s afterReset).2 ⟨p, ps, queue, wait⟩
    have word := rspWord_of_head afterReset queue wait
    exact ⟨fun _ => ⟨by rw [taken, takenOne, word], by rw [queue, word]; rfl⟩, fun no => absurd ⟨valid, ready⟩ no⟩
  · rw [← Bool.not_eq_true, Bool.and_eq_true] at none
    exact ⟨fun yes => absurd yes none, fun _ => taken.trans takenKept⟩

/-! Refused steps (R116, R117). -/

theorem step_of_commandBeforeReset {s : State} (noReset : (drivenEdge s).rstN = true) (beforeReset : s.sawReset = false)
    (valid : (drivenEdge s).cmdValid = true) : step s = .refused .commandBeforeReset := by
  simp [step, atEdge, noReset, beforeReset, valid]

theorem step_of_unresetEdge {s : State} (noReset : (drivenEdge s).rstN = true) (beforeReset : s.sawReset = false)
    (noCommand : (drivenEdge s).cmdValid = false) : step s = .next (unresetEdge s) := by
  simp [step, atEdge, noReset, beforeReset, noCommand]

theorem step_of_breaksOffer {s : State} (noReset : (drivenEdge s).rstN = true) (afterReset : s.sawReset = true)
    (broken : breaksOffer s (drivenEdge s) = true) : step s = .refused .hostBrokeOffer := by
  simp [step, atEdge, noReset, afterReset, broken]

/-- A host that keeps its duty after a reset is never refused. -/
theorem step_of_keepsOffer {s : State} (noReset : (drivenEdge s).rstN = true) (afterReset : s.sawReset = true)
    (kept : breaksOffer s (drivenEdge s) = false) : ∃ t, step s = .next t := by
  cases accepted : accepts s (drivenEdge s) with
  | true =>
    obtain ⟨t, -, r, run, -⟩ :=
      runWord_answersAlike (drivenEdge s).cmdWord (SameRegisters.refl (acceptEdge (drivenEdge s) s))
    exact ⟨t, (step_of_accepts afterReset kept accepted).trans run⟩
  | false => exact ⟨_, step_of_waits noReset afterReset kept accepted⟩

/-- Settles O42: the kind of the edge decides between a next state and the two refusals. -/
theorem stepStopsOnlyOnHostBreach : Obligations.StepStopsOnlyOnHostBreach := by
  intro s e
  rw [← breaksOffer_iff]
  cases noReset : e.rstN with
  | false => simp [step_of_resetEdge noReset]
  | true =>
    cases sawReset : s.sawReset with
    | false =>
      cases valid : e.cmdValid with
      | true => simp [step_of_commandBeforeReset noReset sawReset valid]
      | false => simp [step_of_unresetEdge noReset sawReset valid]
    | true =>
      cases broken : breaksOffer s e with
      | true => simp [step_of_breaksOffer noReset sawReset broken]
      | false =>
        obtain ⟨t, run⟩ := step_of_keepsOffer noReset sawReset broken
        simp [run]

/-! The error state (R109). -/

theorem execDstart_leavesError {len : Word} {s t : State} (run : execDstart len s = .next t)
    (aligned : len.toNat % 4 = 0) : t.dstate ≠ .error ∧ t.derr = .none ∧ t.derrpos = 0 := by
  rcases execDstart_cases len s with ⟨unaligned, -⟩ | ⟨-, run'⟩ | ⟨-, -, run'⟩
  · exact absurd aligned unaligned
  · cases run.symm.trans run'
    exact ⟨by simp, rfl, rfl⟩
  · cases run.symm.trans run'
    exact ⟨by simp, rfl, rfl⟩

/-- A word that is run while no stream is active and is no `DSTART` keeps the registers. -/
theorem runWord_keepsRegisters_of_inactive {w : CmdWord} {s t : State} (inactive : s.dstate ≠ .active)
    (run : runWord w s = .next t) :
    SameRegisters s t ∨ ∃ len, decode w = .ok (.dstart len) ∧ execDstart len s = .next t := by
  rcases runWord_cases w s with ⟨i, read, run'⟩ | ⟨e, -, run'⟩
  · rw [run'] at run
    rcases instr_cases i with ⟨len, rfl⟩ | ⟨s0, s1, s2, s3, rfl⟩ | keeps
    · exact .inr ⟨len, read, run⟩
    · cases run.symm.trans (exec_dgrp_of_inactive inactive s0 s1 s2 s3)
      exact .inl ((SameRegisters.refl s).answering _)
    · exact .inl (exec_keepsRegisters keeps run)
  · cases run.symm.trans run'
    exact .inl ((SameRegisters.refl s).answering _)

/-- Settles O33: of the accepted words `DSTART` alone writes a register, since `ERROR` is not `ACTIVE`. -/
theorem errorIsKeptUntilDstartOrReset : Obligations.ErrorIsKeptUntilDstartOrReset := by
  intro s t afterReset failed run
  rcases step_cases run with
    ⟨reset, rfl⟩ | ⟨-, beforeReset, -⟩ | ⟨-, -, -, accepted, run'⟩ | ⟨-, -, -, -, rfl⟩
  · exact .inr (.inl ⟨reset, rfl, rfl, rfl, rfl, rfl⟩)
  · cases beforeReset.symm.trans afterReset
  · have same := sameRegisters_acceptEdge (drivenEdge s) s
    have inactive : (acceptEdge (drivenEdge s) s).dstate ≠ .active := by simp [failed]
    rcases runWord_keepsRegisters_of_inactive inactive run' with kept | ⟨len, read, started⟩
    · exact .inl (same.trans kept)
    · exact .inr (.inr ⟨len, accepted, read, execDstart_leavesError started⟩)
  · exact .inl (sameRegisters_waitEdge _ s)

end Sys2Proof.Machine
end

section
/-! The invariants (10_state.md R44, R45; 20_memory.md R52): each holds at reset and every step keeps it. -/

namespace Sys2Proof.Machine

/-! The queue of responses (R45). -/

theorem responseEdge_pending_length_le {e : Edge} {s : State} (afterReset : s.sawReset = true)
    (noReset : e.rstN = true) : (responseEdge e s).pending.length ≤ s.pending.length := by
  rcases responseEdge_cases e s afterReset noReset with ⟨p, ps, queue, -, -, pending, -⟩ | ⟨-, pending, -⟩
  · simp [pending, queue]
  · simp [pending]

/-- Settles O43: a command is accepted only below the bound. -/
theorem stepKeepsDepthBound : Obligations.StepKeepsDepthBound := by
  intro s t bound run afterReset'
  rcases step_cases run with
    ⟨-, rfl⟩ | ⟨-, beforeReset, -, rfl⟩ | ⟨noReset, afterReset, -, accepted, run'⟩ | ⟨noReset, afterReset, -, -, rfl⟩
  · exact Nat.zero_le _
  · cases beforeReset.symm.trans afterReset'
  · obtain ⟨r, pending, -⟩ := runWord_answers run'
    obtain ⟨-, -, -, room⟩ := (accepts_iff afterReset).1 accepted
    have shrinks := responseEdge_pending_length_le afterReset noReset
    rw [DepthInv, pending, acceptEdge_pending, List.length_append, List.length_singleton]
    omega
  · exact (responseEdge_pending_length_le afterReset noReset).trans (bound afterReset)

/-! The order of answers (R52). -/

theorem answerInv_resetEdge (s : State) : AnswerInv (resetEdge s) :=
  ⟨State.reset, rfl, ⟨rfl, rfl, rfl, rfl, rfl⟩, rfl⟩

/-- An edge that accepts nothing loses no answer. -/
theorem answerInv_waitEdge {e : Edge} {s : State} (afterReset : s.sawReset = true) (noReset : e.rstN = true)
    (inv : AnswerInv s) : AnswerInv (waitEdge e s) := by
  obtain ⟨r, words, registers, answers⟩ := inv
  refine ⟨r, by rw [waitEdge_accepted, words], registers.trans (sameRegisters_waitEdge e s), ?_⟩
  rw [answers, waitEdge_taken, waitEdge_pending, responseEdge_answers e s afterReset noReset]

theorem runWords_singleton (w : CmdWord) (s : State) : runWords [w] s = runWord w s := by
  unfold runWords
  cases runWord w s <;> rfl

/-- The accepted word answers on the block as it does after the words accepted before it. -/
theorem answerInv_accept {e : Edge} {s t : State} (afterReset : s.sawReset = true) (noReset : e.rstN = true)
    (inv : AnswerInv s) (run : runWord e.cmdWord (acceptEdge e s) = .next t) : AnswerInv t := by
  obtain ⟨r, words, registers, answers⟩ := inv
  obtain ⟨u, t', answer, runAlone, run', ⟨pendingAlone, -⟩, ⟨pending, ports⟩, same⟩ :=
    runWord_answersAlike e.cmdWord (registers.trans (sameRegisters_acceptEdge e s))
  cases run.symm.trans run'
  refine ⟨u, ?words, same, ?answers⟩
  case words => rw [← ports.accepted, acceptEdge_accepted, runWords_append _ _ _ _ words, runWords_singleton, runAlone]
  case answers =>
    rw [pendingAlone, pending, List.map_append, List.map_append, answers, ← ports.taken, ← List.append_assoc,
      acceptEdge_taken, acceptEdge_pending, responseEdge_answers e s afterReset noReset]

/-- Settles O44: a reset edge starts anew, an edge that accepts nothing keeps what was answered, and an accepted word
adds its own answer. -/
theorem stepKeepsAnswersInAcceptanceOrder : Obligations.StepKeepsAnswersInAcceptanceOrder := by
  intro s t inv run afterReset'
  rcases step_cases run with
    ⟨-, rfl⟩ | ⟨-, beforeReset, -, rfl⟩ | ⟨noReset, afterReset, -, -, run'⟩ | ⟨noReset, afterReset, -, -, rfl⟩
  · exact answerInv_resetEdge s
  · cases beforeReset.symm.trans afterReset'
  · exact answerInv_accept afterReset noReset (inv afterReset) run'
  · exact answerInv_waitEdge afterReset noReset (inv afterReset)

/-! The length of the stream (R44). -/

theorem streamLen_append_singleton (ws : List CmdWord) (w : CmdWord) :
    streamLen (ws ++ [w]) = (dstartLen w).or (streamLen ws) := by
  rw [streamLen, List.foldl_append]
  rfl

theorem dstartLen_of_decode_dstart {w : CmdWord} {len : Word} (read : decode w = .ok (.dstart len)) :
    dstartLen w = some len := by
  rw [dstartLen, read]

theorem dstartLen_eq_none {w : CmdWord} (other : ∀ len, decode w ≠ .ok (.dstart len)) : dstartLen w = none := by
  unfold dstartLen
  split
  · exact absurd ‹_› (other _)
  · rfl

/-! The decoder registers (R44). -/

theorem AtGroup.congr {s t : State} (drem : s.drem = t.drem) (dpos : s.dpos = t.dpos)
    (len : streamLen s.accepted = streamLen t.accepted) (h : AtGroup s) : AtGroup t := by
  unfold AtGroup at h ⊢
  rwa [← drem, ← dpos, ← len]

/-- The invariants speak of the registers and of the length of the stream alone. -/
theorem DecoderInv.congr {s t : State} (same : SameRegisters s t)
    (len : streamLen s.accepted = streamLen t.accepted) (h : DecoderInv s) : DecoderInv t := by
  have group : AtGroup s → AtGroup t := AtGroup.congr same.drem same.dpos len
  constructor <;> simp only [← same.dstate, ← same.drem, ← same.dpos, ← same.derr, ← same.derrpos, ← len]
  · exact h.idle
  · exact fun active => ⟨group (h.active active).1, (h.active active).2⟩
  · exact h.done
  · exact h.error
  · exact h.noError
  · exact h.position
  · exact h.badLength
  · exact fun bad => group (h.badGroup bad)
  · exact h.offending

theorem decoderInv_of_idle {s : State} (same : SameRegisters State.reset s) : DecoderInv s := by
  constructor <;> simp [← same.dstate, ← same.drem, ← same.dpos, ← same.derr, ← same.derrpos, State.reset]

theorem decoderInv_of_active {s : State} (active : s.dstate = .active) (group : AtGroup s) (derr : s.derr = .none)
    (derrpos : s.derrpos = 0) : DecoderInv s := by
  constructor <;> simp [active, group, derr, derrpos]

theorem decoderInv_of_done {s : State} (done : s.dstate = .done) (drem : s.drem = 0) (derr : s.derr = .none)
    (derrpos : s.derrpos = 0) (len : streamLen s.accepted = some s.dpos) (aligned : s.dpos.toNat % 4 = 0) :
    DecoderInv s := by
  constructor <;> simp [done, drem, derr, derrpos, len, aligned]

theorem decoderInv_of_invalidLength {s : State} (error : s.dstate = .error) (derr : s.derr = .invalidLength)
    (drem : s.drem = 0) (dpos : s.dpos = 0) (derrpos : s.derrpos = 0) : DecoderInv s := by
  constructor <;> simp [error, drem, dpos, derr, derrpos]

theorem decoderInv_of_invalidPadding {s : State} (error : s.dstate = .error) (derr : s.derr = .invalidPadding)
    (group : AtGroup s) (derrpos : s.derrpos = 0) : DecoderInv s := by
  constructor <;> simp [error, group, derr, derrpos]

theorem decoderInv_of_unexpectedCharacter {s : State} (error : s.dstate = .error)
    (derr : s.derr = .unexpectedCharacter) (group : AtGroup s)
    (offending : s.dpos.toNat ≤ s.derrpos.toNat ∧ s.derrpos.toNat < s.dpos.toNat + 4) : DecoderInv s := by
  constructor <;> simp [error, group, derr, offending]

/-- `DSTART` gives the stream its length. -/
theorem decoderInv_dstart {len : Word} {s t : State} (given : streamLen s.accepted = some len)
    (run : execDstart len s = .next t) : DecoderInv t := by
  rcases execDstart_cases len s with ⟨-, run'⟩ | ⟨rfl, run'⟩ | ⟨aligned, nonempty, run'⟩ <;> cases run.symm.trans run'
  · exact decoderInv_of_invalidLength rfl rfl rfl rfl rfl
  · exact decoderInv_of_done rfl rfl rfl rfl given rfl
  · have groups : (len >>> 2).toNat = len.toNat / 4 := by
      rw [BitVec.toNat_ushiftRight, Nat.shiftRight_eq_div_pow]
    have positive : 0 < len.toNat := Nat.pos_of_ne_zero fun zero => nonempty (BitVec.eq_of_toNat_eq zero)
    refine decoderInv_of_active rfl ⟨?_, rfl, len, given, ?_⟩ rfl rfl <;>
      simp only [respond_drem, respond_dpos, groups]
    · omega
    · simp
      omega

/-- The next group of a stream that has not ended. -/
theorem atGroup_acceptGroup {s : State} (group : AtGroup s) (more : s.drem ≠ 1) (npad : Nat) (v0 v1 v2 v3 : Index) :
    AtGroup (acceptGroup false npad v0 v1 v2 v3 s) := by
  obtain ⟨atLeastOne, aligned, len, given, total⟩ := group
  have two : 2 ≤ s.drem.toNat := by bv_omega
  refine ⟨?_, ?_, len, given, ?_⟩ <;> simp only [acceptGroup_drem, acceptGroup_dpos] <;> bv_omega

/-- The last group accepted: `DPOS` is the whole length. -/
theorem decoderInv_acceptGroup {s : State} (active : s.dstate = .active) (inv : DecoderInv s) (npad : Nat)
    (v0 v1 v2 v3 : Index) : DecoderInv (acceptGroup (decide (s.drem = 1)) npad v0 v1 v2 v3 s) := by
  obtain ⟨group, derr, derrpos⟩ := inv.active active
  by_cases last : s.drem = 1
  · obtain ⟨-, aligned, len, given, total⟩ := group
    have one : s.drem.toNat = 1 := by rw [last]; rfl
    have whole : s.dpos + 4 = len := by bv_omega
    refine decoderInv_of_done ?_ ?_ derr derrpos ?_ ?_
    · simp [last]
    · simp [last]
    · rw [acceptGroup_accepted, acceptGroup_dpos, whole, given]
    · rw [acceptGroup_dpos]
      bv_omega
  · rw [decide_eq_false last]
    exact decoderInv_of_active active (atGroup_acceptGroup group last npad v0 v1 v2 v3) derr derrpos

/-- The offending position is one of the four of the group, which ends within the text. -/
theorem offending_position {s : State} (group : AtGroup s) {j : Nat} (small : j < 4) :
    (s.dpos + BitVec.ofNat 32 j).toNat = s.dpos.toNat + j := by
  obtain ⟨atLeastOne, -, len, -, total⟩ := group
  have fits : s.dpos.toNat + 4 ≤ len.toNat := by omega
  bv_omega

theorem decoderInv_dgrp {s0 s1 s2 s3 : Byte} {s t : State} (inv : DecoderInv s)
    (run : execDgrp s0 s1 s2 s3 s = .next t) : DecoderInv t := by
  rcases execDgrp_cases s0 s1 s2 s3 s with
    ⟨-, run'⟩ | ⟨active, j, small, -, run'⟩ | ⟨active, -, -, run'⟩ | ⟨active, npad, -, -, -, run'⟩ <;>
    cases run.symm.trans run'
  · exact inv.congr ((SameRegisters.refl s).answering _) rfl
  · obtain ⟨group, -, -⟩ := inv.active active
    refine decoderInv_of_unexpectedCharacter rfl rfl (group.congr rfl rfl rfl) ?_
    rw [raiseDecodeError_derrpos, raiseDecodeError_dpos, offending_position group small]
    omega
  · obtain ⟨group, -, -⟩ := inv.active active
    exact decoderInv_of_invalidPadding rfl rfl (group.congr rfl rfl rfl) rfl
  · exact decoderInv_acceptGroup active inv npad _ _ _ _

/-- An accepted word that is no `DSTART` leaves the length of the stream. -/
theorem streamLen_acceptEdge {e : Edge} (other : ∀ len, decode e.cmdWord ≠ .ok (.dstart len)) (s : State) :
    streamLen s.accepted = streamLen (acceptEdge e s).accepted := by
  rw [acceptEdge_accepted, streamLen_append_singleton, dstartLen_eq_none other, Option.none_or]

theorem decoderInv_accept {e : Edge} {s t : State} (inv : DecoderInv s)
    (run : runWord e.cmdWord (acceptEdge e s) = .next t) : DecoderInv t := by
  have accepting (other : ∀ len, decode e.cmdWord ≠ .ok (.dstart len)) : DecoderInv (acceptEdge e s) :=
    inv.congr (sameRegisters_acceptEdge e s) (streamLen_acceptEdge other s)
  rcases runWord_cases e.cmdWord (acceptEdge e s) with ⟨i, read, run'⟩ | ⟨r, rejected, run'⟩
  · rw [run'] at run
    rcases instr_cases i with ⟨len, rfl⟩ | ⟨s0, s1, s2, s3, rfl⟩ | keeps
    · refine decoderInv_dstart ?_ run
      rw [acceptEdge_accepted, streamLen_append_singleton, dstartLen_of_decode_dstart read, Option.some_or]
    · exact decoderInv_dgrp (accepting (by simp [read])) run
    · obtain ⟨t', r, run'', -, ports⟩ := exec_answers i (acceptEdge e s)
      cases run.symm.trans run''
      refine (accepting fun len isDstart => ?_).congr (exec_keepsRegisters keeps run) (by rw [ports.accepted])
      cases read.symm.trans isDstart
      cases keeps
  · cases run.symm.trans run'
    exact (accepting (by simp [rejected])).congr ((SameRegisters.refl _).answering _) rfl

/-- Settles O45: a reset edge gives `IDLE`, an edge that accepts nothing keeps the registers and the length, and an
accepted word is `decoderInv_accept`. -/
theorem stepKeepsDecoderInvariants : Obligations.StepKeepsDecoderInvariants := by
  intro s t inv run afterReset'
  rcases step_cases run with
    ⟨-, rfl⟩ | ⟨-, beforeReset, -, rfl⟩ | ⟨-, afterReset, -, -, run'⟩ | ⟨-, afterReset, -, -, rfl⟩
  · exact decoderInv_of_idle ⟨rfl, rfl, rfl, rfl, rfl⟩
  · cases beforeReset.symm.trans afterReset'
  · exact decoderInv_accept (inv afterReset) run'
  · exact (inv afterReset).congr (sameRegisters_waitEdge _ s) (by rw [waitEdge_accepted])

/-- Settles O46: nothing waits or is accepted at reset, and power-on comes before the first reset. -/
theorem resetMeetsInvariants : Obligations.ResetMeetsInvariants :=
  ⟨decoderInv_of_idle (.refl _), Nat.zero_le _, ⟨State.reset, rfl, .refl _, rfl⟩, fun afterReset => by cases afterReset⟩

/-! The legal values (R43). -/

theorem AtGroup.bounds {s : State} (group : AtGroup s) :
    s.dpos.toNat % 4 = 0 ∧ s.dpos.toNat ≤ 2 ^ 32 - 8 ∧ s.drem.toNat ≤ 2 ^ 30 - 1 := by
  obtain ⟨atLeastOne, aligned, len, -, total⟩ := group
  have fits := len.isLt
  omega

theorem legalRegisters_of_bounds {s : State} (derrpos : s.derrpos = 0) (aligned : s.dpos.toNat % 4 = 0)
    (drem : s.drem.toNat ≤ 2 ^ 30 - 1) : LegalRegisters s := by
  have fits := s.dpos.isLt
  refine ⟨by simp [derrpos], aligned, by omega, drem⟩

/-- Settles O47: by the state of the decoder, and in `ERROR` by the error. -/
theorem invariantsGiveLegalRegisters : Obligations.InvariantsGiveLegalRegisters := by
  intro s inv
  have noPosition (h : s.derr ≠ .unexpectedCharacter) : s.derrpos = 0 := by_contra fun ne => h (inv.position ne)
  cases dstate : s.dstate with
  | idle =>
    obtain ⟨drem, dpos, -, derrpos⟩ := inv.idle dstate
    exact legalRegisters_of_bounds derrpos (by simp [dpos]) (by simp [drem])
  | active =>
    obtain ⟨group, -, derrpos⟩ := inv.active dstate
    obtain ⟨aligned, -, drem⟩ := group.bounds
    exact legalRegisters_of_bounds derrpos aligned drem
  | done =>
    obtain ⟨drem, -, derrpos, -, aligned⟩ := inv.done dstate
    exact legalRegisters_of_bounds derrpos aligned (by simp [drem])
  | error =>
    cases derr : s.derr with
    | none => exact absurd derr (inv.error dstate)
    | invalidLength =>
      obtain ⟨drem, dpos⟩ := inv.badLength derr
      exact legalRegisters_of_bounds (noPosition (by simp [derr])) (by simp [dpos]) (by simp [drem])
    | invalidPadding =>
      obtain ⟨aligned, -, drem⟩ := (inv.badGroup (.inr derr)).bounds
      exact legalRegisters_of_bounds (noPosition (by simp [derr])) aligned drem
    | unexpectedCharacter =>
      obtain ⟨aligned, dpos, drem⟩ := (inv.badGroup (.inl derr)).bounds
      obtain ⟨-, below⟩ := inv.offending derr
      refine ⟨by omega, aligned, by omega, drem⟩

end Sys2Proof.Machine
end

section
/-! The two bit shifters (40_encoder.md R80, 41_decoder.md R89) against the document's formulas, the lanes of the
encoder's results (40_encoder.md R84), and the groups of the decoder (41_decoder.md R86 to R88). -/

namespace Sys2Proof.Machine

/-- Settles O1: one lemma about `alpha` for each range. -/
theorem alphabetTableContents : Obligations.AlphabetTableContents := fun i =>
  ⟨alpha_toNat_upper i, alpha_toNat_lower i, alpha_toNat_digit i,
    fun h => (BitVec.eq_of_toNat_eq h : i = 62) ▸ alpha_62, fun h => (BitVec.eq_of_toNat_eq h : i = 63) ▸ alpha_63⟩

/-- Settles O30: `LUTI` of `ALPHA(i)` gives the ROM entry of a data symbol, which is its value `i`. -/
theorem probesShowTablesInverse : Obligations.ProbesShowTablesInverse := by
  intro i s
  have octet : byte0Of (rspData (packRsp .ok 0 false (0#24 ++ alpha i : BitVec 32))) = alpha i := by
    rw [rspData_packRsp, byte0Of_concat_high24]
  refine ⟨_, _, _, packRsp .ok 0 false (0#24 ++ invEntry (alpha i) : BitVec 32), rfl, rfl, by rw [octet]; rfl, rfl,
    rspStatus_packRsp .., ?_⟩
  have row : inv (alpha i) = (.data, BitVec.ofNat 6 i.toNat) := by
    rw [inv_alpha, BitVec.ofNat_toNat, BitVec.setWidth_eq]
  rw [rspData_packRsp, toNat_cat_24_8, invEntry_toNat_of_data row i.isLt]
  simp

/-! `SPLIT` and `COLLAPSE` as shifts and masks on naturals. -/

theorem lane_toNat (g : BitVec 24) (k : Nat) : (lane g k).toNat = g.toNat / 2 ^ (18 - 6 * k) % 2 ^ 6 :=
  toNat_extract g _ 6

theorem byteGroup_toNat (a b c : Byte) :
    (byteGroup a b c).toNat = (a.toNat * 2 ^ 8 + b.toNat) * 2 ^ 8 + c.toNat := toNat_cat_8_8_8 a b c

/-- A number shifted left over one that fits in the bits it leaves: the document's `|` is a sum. -/
theorem shiftLeft_or_eq_add {x y n : Nat} (fits : y < 2 ^ n) : (x <<< n) ||| y = x * 2 ^ n + y := by
  rw [Nat.shiftLeft_eq, Nat.mul_comm, Nat.two_pow_add_eq_or_of_lt fits]

theorem and_0x3F (x : Nat) : x &&& 0x3F = x % 2 ^ 6 := Nat.and_two_pow_sub_one_eq_mod x 6

/-- Settles O16: each field as a number, where the formula's `|` and `&` are a sum and a remainder. -/
theorem splitEqualsShiftFormulas : Obligations.SplitEqualsShiftFormulas := by
  intro a b c
  have ha := a.isLt
  have hb := b.isLt
  have hc := c.isLt
  have high4 : b.toNat >>> 4 < 2 ^ 4 := by rw [Nat.shiftRight_eq_div_pow]; omega
  have high2 : c.toNat >>> 6 < 2 ^ 2 := by rw [Nat.shiftRight_eq_div_pow]; omega
  rw [shiftLeft_or_eq_add high4, shiftLeft_or_eq_add high2]
  simp only [split, lane_toNat, byteGroup_toNat, and_0x3F, Nat.shiftRight_eq_div_pow, Nat.shiftLeft_eq]
  refine ⟨?_, ?_, ?_, ?_, ?_, ?_⟩ <;> simp <;> omega

/-- Settles O25: as `splitEqualsShiftFormulas`, the third byte taken to 8 bits. -/
theorem collapseEqualsShiftFormulas : Obligations.CollapseEqualsShiftFormulas := by
  intro v1 v2 v3 v4
  have h1 := v1.isLt
  have h2 := v2.isLt
  have h3 := v3.isLt
  have high2 : v2.toNat >>> 4 < 2 ^ 2 := by rw [Nat.shiftRight_eq_div_pow]; omega
  have high4 : v3.toNat >>> 2 < 2 ^ 4 := by rw [Nat.shiftRight_eq_div_pow]; omega
  have low4 : v2.toNat &&& 0x0F = v2.toNat % 2 ^ 4 := Nat.and_two_pow_sub_one_eq_mod _ 4
  rw [shiftLeft_or_eq_add high2, shiftLeft_or_eq_add high4, shiftLeft_or_eq_add v4.isLt, low4]
  simp only [collapse, toNat_extract, toNat_cat_6_6_6_6, Nat.shiftRight_eq_div_pow]
  omega

/-! Lanes of the encoder's results (R84). -/

/-- The octet `[31 - 8k : 24 - 8k]` of four symbols is the symbol `k`. -/
theorem symbolWord_lane (s0 s1 s2 s3 : Byte) {k : Nat} (small : k < 4) :
    (symbolWord s0 s1 s2 s3).extractLsb' (24 - 8 * k) 8 = [s0, s1, s2, s3].getD k 0 := by
  interval_cases k
  · exact byte3Of_concat s0 s1 s2 s3
  · exact byte2Of_concat s0 s1 s2 s3
  · exact byte1Of_concat s0 s1 s2 s3
  · exact byte0Of_concat s0 s1 s2 s3

/-- Settles O17: the lane `k` of each response word is the symbol `k` that the command answers. -/
theorem encoderLanes : Obligations.EncoderLanes := by
  intro a b c s
  refine ⟨_, _, _, _, _, _, rfl, rfl, rfl, rfl, rfl, rfl, fun k small => ?_⟩
  simp only [rspData_packRsp, symbolWord_lane _ _ _ _ small]
  interval_cases k <;> exact ⟨rfl, rfl, rfl⟩

/-! Groups of the decoder (R86 to R88). -/

/-- Settles O22: `D D P D` in a final group passes check 1 and fails check 2. -/
theorem dgrpInvalidPadding : Obligations.DgrpInvalidPadding := by
  intro s0 s1 s3 s active last data0 data1 data3
  have verdict : validate (decide (s.drem = 1)) (inv s0).1 (inv s1).1 (inv 0x3D).1 (inv s3).1 = .badPadding := by
    rw [last, data0, data1, inv_equalsSign, data3]
    rfl
  rw [exec_dgrp_of_badPadding active verdict, raiseDecodeError_eq_answering]
  rfl

theorem acceptGroup_notFinal (npad : Nat) (v0 v1 v2 v3 : Index) (s : State) :
    acceptGroup false npad v0 v1 v2 v3 s =
      answering { s with dpos := s.dpos + 4, drem := s.drem - 1, dstate := s.dstate }
        (0#4 ++ BitVec.ofNat 3 (3 - npad) ++ 0#1 ++
          byteWord (BitVec.ofNat 3 (3 - npad)) (collapse v0 v1 v2 v3) : BitVec 40) := rfl

/-- Settles O23: `D D D D` is accepted with no pad, final or not. -/
theorem dgrpFullGroup : Obligations.DgrpFullGroup := by
  intro s0 s1 s2 s3 s active data0 data1 data2 data3
  have verdict : validate (decide (s.drem = 1)) (inv s0).1 (inv s1).1 (inv s2).1 (inv s3).1 = .accepted 0 := by
    rw [data0, data1, data2, data3]
    cases decide (s.drem = 1) <;> rfl
  rw [exec_dgrp_of_accepted active verdict, ← byteWord_three_collapse]
  by_cases last : s.drem = 1
  · rw [decide_eq_true last, acceptGroup_final last, if_pos last, if_pos last, last]
    rfl
  · rw [decide_eq_false last, acceptGroup_notFinal, if_neg last, if_neg last, active]
    rfl

/-- Settles O26: an active `DGRP` is accepted or raises a decode error. -/
theorem dgrpIsAtomic : Obligations.DgrpIsAtomic := by
  intro s0 s1 s2 s3 s active
  rcases execDgrp_cases s0 s1 s2 s3 s with
    ⟨inactive, -⟩ | ⟨-, j, -, -, run⟩ | ⟨-, -, -, run⟩ | ⟨-, npad, small, -, -, run⟩
  · exact absurd active inactive
  · exact ⟨_, _, run, rfl, .inr ⟨.inl (rspStatus_packRsp ..), rfl, rfl, rspCount_packRsp .., rfl⟩⟩
  · exact ⟨_, _, run, rfl, .inr ⟨.inr (rspStatus_packRsp ..), rfl, rfl, rspCount_packRsp .., rfl⟩⟩
  · have count := groupCount_bounds small
    refine ⟨_, _, run, rfl, .inl ⟨rspStatus_packRsp .., rfl, rfl, ?_, ?_, rfl, rfl⟩⟩ <;> rw [rspCount_packRsp]
    exacts [count.1, count.2]

end Sys2Proof.Machine
end

section
/-! Progress (70_reset_and_hazards.md R125) with the host of an empty list of inputs, which keeps its offer, offers
nothing new and takes every response. -/

namespace Sys2Proof.Machine

/-! Runs. -/

theorem reaches_zero (s : State) : Reaches 0 s s := rfl

theorem run_succ_of_step {M : Host.Core} {k : Nat} {s u : M.State} (first : M.step s = .next u) :
    M.run (k + 1) s = M.run k u := by
  simp only [Host.Core.run, first]

theorem reaches_succ {k : Nat} {s u t : State} (run : step s = .next u) (rest : Reaches k u t) : Reaches (k + 1) s t :=
  (run_succ_of_step (M := core) run).trans rest

/-! The host of an empty list of inputs. -/

/-- After a reset, with no input left and the command `offer` on offer or none. -/
structure LeftAlone (offer : Option CmdWord) (s : State) : Prop where
  afterReset : s.sawReset = true
  inputs : s.inputs = []
  offer : s.offer = offer

/-- What such a host drives. -/
def keepingEdge (offer : Option CmdWord) : Edge := ⟨true, offer.isSome, offer.getD 0, true⟩

theorem LeftAlone.drivenEdge_eq {offer : Option CmdWord} {s : State} (h : LeftAlone offer s) :
    drivenEdge s = keepingEdge offer := by
  rw [drivenEdge, h.inputs, h.offer]
  rfl

theorem LeftAlone.keepsOffer {offer : Option CmdWord} {s : State} (h : LeftAlone offer s) :
    breaksOffer s (keepingEdge offer) = false := by
  rw [breaksOffer, h.offer]
  cases offer <;> simp [keepingEdge]

theorem LeftAlone.step_waits {offer : Option CmdWord} {s : State} (h : LeftAlone offer s)
    (waits : accepts s (keepingEdge offer) = false) : step s = .next (waitEdge (keepingEdge offer) s) := by
  have run := step_of_waits (s := s)
  rw [h.drivenEdge_eq] at run
  exact run rfl h.afterReset h.keepsOffer waits

theorem LeftAlone.waitEdge {offer : Option CmdWord} {s : State} (h : LeftAlone offer s) :
    LeftAlone offer (waitEdge (keepingEdge offer) s) := by
  refine ⟨by rw [waitEdge_sawReset, h.afterReset], by rw [waitEdge_inputs, h.inputs]; rfl, ?_⟩
  rw [waitEdge_offer]
  cases offer <;> rfl

/-! Every edge brings the queue nearer to being empty. -/

/-- A bound on the edges after which every response has been taken. -/
def edgesLeft (ps : List Pending) : Nat := (ps.map fun p => p.wait + 1).sum

@[simp] theorem edgesLeft_cons (p : Pending) (ps : List Pending) :
    edgesLeft (p :: ps) = p.wait + 1 + edgesLeft ps := rfl

theorem edgesLeft_age_le (ps : List Pending) : edgesLeft (ps.map Pending.age) ≤ edgesLeft ps := by
  induction ps with
  | nil => exact Nat.le_refl _
  | cons p ps ih =>
    rw [List.map_cons, edgesLeft_cons, edgesLeft_cons, Pending.age_wait]
    omega

theorem edgesLeft_waitEdge_lt {offer : Option CmdWord} {s : State} (h : LeftAlone offer s) (waiting : s.pending ≠ []) :
    edgesLeft (waitEdge (keepingEdge offer) s).pending < edgesLeft s.pending := by
  rw [waitEdge_pending]
  rcases responseEdge_cases (keepingEdge offer) s h.afterReset rfl with
    ⟨p, ps, queue, -, -, pending, -⟩ | ⟨notOffered, pending, -⟩
  · have rest := edgesLeft_age_le ps
    rw [pending, queue, edgesLeft_cons]
    omega
  · obtain ⟨p, ps, queue⟩ := List.exists_cons_of_ne_nil waiting
    have positive : p.wait ≠ 0 := by
      intro zero
      have valid : rspValid s true = true := (rspValid_iff s h.afterReset).2 ⟨p, ps, queue, zero⟩
      rw [valid] at notOffered
      cases notOffered
    have rest := edgesLeft_age_le ps
    rw [pending, queue, List.map_cons, edgesLeft_cons, edgesLeft_cons, Pending.age_wait]
    omega

/-! A command on offer (R60): it waits until the queue has room and the stall is over. -/

theorem accepted_when_ready {s : State} {w : CmdWord} (h : LeftAlone (some w) s)
    (ready : accepts s (keepingEdge (some w)) = true) : ∃ t, step s = .next t ∧ t.accepted = s.accepted ++ [w] := by
  have run := step_of_accepts (s := s)
  rw [h.drivenEdge_eq] at run
  obtain ⟨t, run'⟩ := step_of_keepsOffer (s := s) (by rw [h.drivenEdge_eq]; rfl) h.afterReset
    (by rw [h.drivenEdge_eq]; exact h.keepsOffer)
  obtain ⟨r, answers⟩ := runWord_answers ((run h.afterReset h.keepsOffer ready).symm.trans run')
  exact ⟨t, run', by rw [← answers.ports.accepted, acceptEdge_accepted]; rfl⟩

/-- An edge at which the command waits takes a response nearer or, when none waits, runs the stall down. -/
theorem waiting_decreases {s : State} {w : CmdWord} (h : LeftAlone (some w) s)
    (waits : accepts s (keepingEdge (some w)) = false) :
    let t := waitEdge (keepingEdge (some w)) s
    edgesLeft t.pending < edgesLeft s.pending ∨ (edgesLeft t.pending = edgesLeft s.pending ∧ t.stall < s.stall) := by
  intro t
  by_cases waiting : s.pending = []
  · have stalled : s.stall ≠ 0 := by
      intro noStall
      rw [(accepts_iff h.afterReset).2 ⟨rfl, rfl, noStall, by simp [waiting, Config.cmdDepth]⟩] at waits
      cases waits
    refine .inr ⟨?_, by rw [waitEdge_stall, if_neg stalled]; omega⟩
    rcases responseEdge_cases (keepingEdge (some w)) s h.afterReset rfl with ⟨p, ps, queue, -⟩ | ⟨-, pending, -⟩
    · cases waiting.symm.trans queue
    · rw [waitEdge_pending, pending, waiting]
      rfl
  · exact .inl (edgesLeft_waitEdge_lt h waiting)

theorem accepted_eventually (s : State) (w : CmdWord) (h : LeftAlone (some w) s) :
    ∃ k t, Reaches (k + 1) s t ∧ t.accepted = s.accepted ++ [w] := by
  cases ready : accepts s (keepingEdge (some w)) with
  | true =>
    obtain ⟨t, run, accepted⟩ := accepted_when_ready h ready
    exact ⟨0, t, reaches_succ run (reaches_zero t), accepted⟩
  | false =>
    have decreases := waiting_decreases h ready
    obtain ⟨k, t, reached, accepted⟩ := accepted_eventually (waitEdge (keepingEdge (some w)) s) w h.waitEdge
    exact ⟨k + 1, t, reaches_succ (h.step_waits ready) reached, by rw [accepted, waitEdge_accepted]⟩
termination_by (edgesLeft s.pending, s.stall)
decreasing_by
  rw [Prod.lex_def]
  exact decreases

/-- Settles O48: `accepted_eventually`. -/
theorem offeredCommandIsAccepted : Obligations.OfferedCommandIsAccepted :=
  fun s w afterReset inputs offer => accepted_eventually s w ⟨afterReset, inputs, offer⟩

/-! Responses while nothing is offered. -/

theorem LeftAlone.step_eq {s : State} (h : LeftAlone none s) : step s = .next (Machine.waitEdge (keepingEdge none) s) :=
  h.step_waits rfl

/-- Such an edge loses no response. -/
theorem LeftAlone.answers {s : State} (h : LeftAlone none s) :
    let t := Machine.waitEdge (keepingEdge none) s
    t.taken ++ t.pending.map Pending.rsp = s.taken ++ s.pending.map Pending.rsp :=
  responseEdge_answers (keepingEdge none) s h.afterReset rfl

theorem delivered_eventually (s : State) (h : LeftAlone none s) :
    ∃ k t, Reaches k s t ∧ t.pending = [] ∧ t.taken = s.taken ++ s.pending.map Pending.rsp := by
  by_cases waiting : s.pending = []
  · exact ⟨0, s, reaches_zero s, waiting, by simp [waiting]⟩
  · have decreases := edgesLeft_waitEdge_lt h waiting
    obtain ⟨k, t, reached, empty, taken⟩ := delivered_eventually (waitEdge (keepingEdge none) s) h.waitEdge
    exact ⟨k + 1, t, reaches_succ h.step_eq reached, empty, taken.trans h.answers⟩
termination_by edgesLeft s.pending

/-- Settles O49: `delivered_eventually`. -/
theorem waitingResponsesAreDelivered : Obligations.WaitingResponsesAreDelivered :=
  fun s afterReset inputs offer => delivered_eventually s ⟨afterReset, inputs, offer⟩

/-! One response alone. -/

theorem LeftAlone.step_before_offer {s : State} {p : Pending} (h : LeftAlone none s) (queue : s.pending = [p])
    (waits : p.wait ≠ 0) :
    let t := Machine.waitEdge (keepingEdge none) s
    t.pending = [p.age] ∧ t.taken = s.taken := by
  rcases responseEdge_cases (keepingEdge none) s h.afterReset rfl with ⟨q, qs, queue', zero, -⟩ | ⟨-, pending, taken⟩
  · cases queue.symm.trans queue'
    exact absurd zero waits
  · exact ⟨by rw [waitEdge_pending, pending, queue]; rfl, taken⟩

theorem LeftAlone.step_at_offer {s : State} {p : Pending} (h : LeftAlone none s) (queue : s.pending = [p])
    (ready : p.wait = 0) :
    let t := Machine.waitEdge (keepingEdge none) s
    t.pending = [] ∧ t.taken = s.taken ++ [p.rsp] := by
  have valid : rspValid s true = true := (rspValid_iff s h.afterReset).2 ⟨p, [], queue, ready⟩
  rcases responseEdge_cases (keepingEdge none) s h.afterReset rfl with
    ⟨q, qs, queue', -, -, pending, taken⟩ | ⟨notOffered, -⟩
  · cases queue.symm.trans queue'
    exact ⟨pending, taken⟩
  · rw [valid] at notOffered
    cases notOffered

theorem rspValid_alone {s : State} {p : Pending} (afterReset : s.sawReset = true) (queue : s.pending = [p]) :
    rspValid s true = true ↔ p.wait = 0 := by
  simp [rspValid_iff s afterReset, queue]

theorem offered_after_wait (n : Nat) (s : State) (p : Pending) (h : LeftAlone none s) (queue : s.pending = [p])
    (wait : p.wait = n) :
    (∀ k, k ≤ n → ∃ t, Reaches k s t ∧ t.taken = s.taken ∧ (rspValid t true = true ↔ k = n)) ∧
      ∃ t, Reaches (n + 1) s t ∧ t.taken = s.taken ++ [p.rsp] ∧ t.pending = [] := by
  have now : rspValid s true = true ↔ 0 = n := by
    rw [rspValid_alone h.afterReset queue, wait, eq_comm]
  induction n generalizing s p with
  | zero =>
    obtain ⟨empty, taken⟩ := h.step_at_offer queue wait
    refine ⟨fun k le => ⟨s, ?_, rfl, ?_⟩, _, reaches_succ h.step_eq (reaches_zero _), taken, empty⟩
    · rw [Nat.le_zero.1 le]
      exact reaches_zero s
    · rw [Nat.le_zero.1 le, now]
  | succ n ih =>
    obtain ⟨queue', taken⟩ := h.step_before_offer queue (by omega)
    have wait' : p.age.wait = n := by rw [Pending.age_wait, wait, Nat.add_sub_cancel]
    obtain ⟨later, u, reached, delivered, empty⟩ := ih _ p.age h.waitEdge queue' wait'
      (by rw [rspValid_alone h.waitEdge.afterReset queue', wait', eq_comm])
    refine ⟨fun k le => ?_, u, reaches_succ h.step_eq reached, by rw [delivered, taken, Pending.age_rsp], empty⟩
    cases k with
    | zero => exact ⟨s, reaches_zero s, rfl, now⟩
    | succ k =>
      obtain ⟨t, reached, kept, offered⟩ := later k (Nat.le_of_succ_le_succ le)
      exact ⟨t, reaches_succ h.step_eq reached, kept.trans taken, by rw [offered, Nat.succ_inj]⟩

/-- Settles O50: `offered_after_wait`, with the wait of the response. -/
theorem responseIsOfferedAfterItsWait : Obligations.ResponseIsOfferedAfterItsWait :=
  fun s p afterReset inputs offer queue => offered_after_wait p.wait s p ⟨afterReset, inputs, offer⟩ queue rfl

end Sys2Proof.Machine
end

section
/-! The host's two sequences (70_reset_and_hazards.md R119, R120): the text its `encode` gives, the groups its `decode`
runs, and the round trip (40_encoder.md R82, R83; 41_decoder.md R91, R93). -/

namespace Sys2Proof.Machine

/-- The host reads the response its command adds. -/
theorem ask_of_exec {i : Instr} {s t : State} {r : RspWord} (wf : i.wf = true) (run : exec i s = .next t)
    (queued : t.pending = s.pending ++ [⟨r, Config.extraLatency⟩]) : ask i s = some (r, t) := by
  rw [ask, runWord_of_decode (decodeUndoesEncode i wf), run]
  simp [queued]

/-! ## `encode` -/

theorem symbolsOf_symbolWord (s0 s1 s2 s3 : Byte) :
    symbolsOf (packRsp .ok 4 false (symbolWord s0 s1 s2 s3)) = [s0, s1, s2, s3] := by
  rw [symbolsOf, rspData_packRsp, symbolWord, byte3Of_concat, byte2Of_concat, byte1Of_concat, byte0Of_concat]

/-- The four symbols of a group of 24 bits (R75, R84). -/
def groupText (g : BitVec 24) : List Byte := [alpha (lane g 0), alpha (lane g 1), alpha (lane g 2), alpha (lane g 3)]

/-- The text of a buffer, group by group (R75 to R77). -/
def encodeText : List Byte → List Byte
  | a :: b :: c :: rest => groupText (byteGroup a b c) ++ encodeText rest
  | [a, b] => (groupText (byteGroup a b 0)).take 3 ++ [padSymbol]
  | [a] => (groupText (byteGroup a 0 0)).take 2 ++ [padSymbol, padSymbol]
  | [] => []

theorem sameRegisters_respondSymbols (s0 s1 s2 s3 : Byte) (s : State) :
    SameRegisters s (respondSymbols s0 s1 s2 s3 s) := ⟨rfl, rfl, rfl, rfl, rfl⟩

theorem ask_enc3 (a b c : Byte) (s : State) : ∃ r t, ask (.enc3 a b c) s = some (r, t) ∧ SameRegisters s t ∧
    symbolsOf r = encodeText [a, b, c] :=
  ⟨_, _, ask_of_exec rfl rfl rfl, sameRegisters_respondSymbols .., symbolsOf_symbolWord ..⟩

theorem ask_enc2 (a b : Byte) (s : State) : ∃ r t, ask (.enc2 a b) s = some (r, t) ∧ SameRegisters s t ∧
    symbolsOf r = encodeText [a, b] :=
  ⟨_, _, ask_of_exec rfl rfl rfl, sameRegisters_respondSymbols .., symbolsOf_symbolWord ..⟩

theorem ask_enc1 (a : Byte) (s : State) : ∃ r t, ask (.enc1 a) s = some (r, t) ∧ SameRegisters s t ∧
    symbolsOf r = encodeText [a] :=
  ⟨_, _, ask_of_exec rfl rfl rfl, sameRegisters_respondSymbols .., symbolsOf_symbolWord ..⟩

theorem hostEncode_eq (b : List Byte) (s : State) :
    ∃ t, hostEncode b s = some (encodeText b, t) ∧ SameRegisters s t := by
  induction b using encodeText.induct generalizing s with
  | case1 a b c rest ih =>
    obtain ⟨r, t, asked, same, symbols⟩ := ask_enc3 a b c s
    obtain ⟨u, encoded, same'⟩ := ih t
    refine ⟨u, ?_, same.trans same'⟩
    rw [hostEncode, asked]
    simp [encoded, symbols, encodeText]
  | case2 a b =>
    obtain ⟨r, t, asked, same, symbols⟩ := ask_enc2 a b s
    exact ⟨t, by rw [hostEncode, asked, Option.map_some, symbols], same⟩
  | case3 a =>
    obtain ⟨r, t, asked, same, symbols⟩ := ask_enc1 a s
    exact ⟨t, by rw [hostEncode, asked, Option.map_some, symbols], same⟩
  | case4 => exact ⟨s, rfl, .refl s⟩

@[simp] theorem groupText_length (g : BitVec 24) : (groupText g).length = 4 := rfl

theorem encodeText_length (b : List Byte) : (encodeText b).length = 4 * ((b.length + 2) / 3) := by
  induction b using encodeText.induct with
  | case1 a b c rest ih =>
    rw [encodeText, List.length_append, ih, groupText_length]
    simp only [List.length_cons]
    omega
  | case2 a b => simp [encodeText]
  | case3 a => simp [encodeText]
  | case4 => rfl

theorem alpha_ne_padSymbol (i : Index) : alpha i ≠ padSymbol := by
  intro pad
  cases (inv_alpha i).symm.trans (pad ▸ inv_equalsSign : inv (alpha i) = (.pad, 0))

theorem padSymbol_not_mem_groupText (g : BitVec 24) : padSymbol ∉ groupText g := by
  simp [groupText, (alpha_ne_padSymbol _).symm]

/-- R83: symbols of the alphabet, and after them at most two pads, none after whole groups of three bytes. -/
theorem encodeText_shape (b : List Byte) : ∃ symbols pads, encodeText b = symbols ++ List.replicate pads padSymbol ∧
    padSymbol ∉ symbols ∧ pads ≤ 2 ∧ (b.length % 3 = 0 → pads = 0) := by
  have noPad (g : BitVec 24) (n : Nat) : padSymbol ∉ (groupText g).take n :=
    fun pad => padSymbol_not_mem_groupText g (List.mem_of_mem_take pad)
  induction b using encodeText.induct with
  | case1 a b c rest ih =>
    obtain ⟨symbols, pads, text, noPads, few, whole⟩ := ih
    refine ⟨groupText (byteGroup a b c) ++ symbols, pads, by rw [encodeText, text, List.append_assoc], ?_, few, ?_⟩
    · rw [List.mem_append, not_or]
      exact ⟨padSymbol_not_mem_groupText _, noPads⟩
    · simp only [List.length_cons]
      exact fun h => whole (by omega)
  | case2 a b => exact ⟨_, 1, rfl, noPad _ 3, by omega, fun h => by cases h⟩
  | case3 a => exact ⟨_, 2, rfl, noPad _ 2, by omega, fun h => by cases h⟩
  | case4 => exact ⟨[], 0, rfl, List.not_mem_nil, by omega, fun _ => rfl⟩

/-- Settles O51: the text is `encodeText`, whose pads are its last symbols. -/
theorem hostEncodeLengthAndPadding : Obligations.HostEncodeLengthAndPadding := by
  intro b s
  obtain ⟨t, encoded, same⟩ := hostEncode_eq b s
  obtain ⟨symbols, pads, text, noPad, few, whole⟩ := encodeText_shape b
  refine ⟨encodeText b, t, encoded, encodeText_length b, same, fun k atPad => ?atEnd, fun aligned => ?noPads⟩
  case atEnd =>
    rw [text] at atPad ⊢
    have beyond : symbols.length ≤ k := by
      by_contra before
      rw [List.getElem?_append_left (by omega)] at atPad
      exact noPad (List.mem_of_getElem? atPad)
    rw [List.length_append, List.length_replicate]
    omega
  case noPads =>
    rw [text, whole aligned]
    simpa using noPad

/-! ## `decode`: the groups -/

/-- The stream in `s` still expects exactly the symbols of `text`, at least one group (R44). -/
structure Expects (s : State) (text : List Byte) : Prop where
  active : s.dstate = .active
  groups : text.length = 4 * s.drem.toNat
  fits : s.dpos.toNat + text.length < 2 ^ 32
  nonempty : text ≠ []

theorem Expects.exists_group {s : State} {text : List Byte} (h : Expects s text) :
    ∃ s0 s1 s2 s3 rest, text = s0 :: s1 :: s2 :: s3 :: rest := by
  have groups := h.groups
  match text, h.nonempty with
  | [_], _ => simp at groups; omega
  | [_, _], _ => simp at groups; omega
  | [_, _, _], _ => simp at groups; omega
  | s0 :: s1 :: s2 :: s3 :: rest, _ => exact ⟨s0, s1, s2, s3, rest, rfl⟩

section
variable {s : State} {s0 s1 s2 s3 : Byte} {rest acc : List Byte}

theorem Expects.last_iff (h : Expects s (s0 :: s1 :: s2 :: s3 :: rest)) : s.drem = 1 ↔ rest = [] := by
  have groups := h.groups
  simp only [List.length_cons] at groups
  rw [← List.length_eq_zero_iff]
  constructor
  · intro last
    rw [last] at groups
    simp at groups
    simp [groups]
  · bv_omega

theorem Expects.tail (h : Expects s (s0 :: s1 :: s2 :: s3 :: rest)) (more : rest ≠ []) (npad : Nat)
    (v0 v1 v2 v3 : Index) : Expects (acceptGroup false npad v0 v1 v2 v3 s) rest := by
  obtain ⟨active, groups, fits, -⟩ := h
  simp only [List.length_cons] at groups fits
  refine ⟨active, ?_, ?_, more⟩ <;> simp only [acceptGroup_drem, acceptGroup_dpos] <;> bv_omega

/-- The bytes of a group accepted with `npad` pads (R89, R90). -/
def groupBytes (npad : Nat) (bs : Byte × Byte × Byte) : List Byte := [bs.1, bs.2.1, bs.2.2].take (3 - npad)

theorem bytesOf_accepted {npad : Nat} (small : npad < 3) (final : Bool) (bs : Byte × Byte × Byte) :
    bytesOf (packRsp .ok (BitVec.ofNat 3 (3 - npad)) final (byteWord (BitVec.ofNat 3 (3 - npad)) bs)) =
      groupBytes npad bs := by
  rw [bytesOf, rspData_packRsp, rspCount_packRsp]
  interval_cases npad
  · change List.take 3 [byte2Of (byteWord 3 bs), byte1Of (byteWord 3 bs), byte0Of (byteWord 3 bs)] = _
    rw [byteWord_three, byte2Of_concat, byte1Of_concat, byte0Of_concat]
    rfl
  · change List.take 2 [byte2Of (byteWord 2 bs), byte1Of (byteWord 2 bs), byte0Of (byteWord 2 bs)] = _
    rw [byteWord_two, byte2Of_concat, byte1Of_concat]
    rfl
  · change List.take 1 [byte2Of (byteWord 1 bs), byte1Of (byteWord 1 bs), byte0Of (byteWord 1 bs)] = _
    rw [byteWord_one, byte2Of_concat]
    rfl

theorem hostDecodeGroups_nil (acc : List Byte) (s : State) : hostDecodeGroups [] acc s = some (.bytes acc, s) := rfl

theorem hostDecodeGroups_of_unexpected {j : Nat} (active : s.dstate = .active)
    (verdict : validate (decide (s.drem = 1)) (inv s0).1 (inv s1).1 (inv s2).1 (inv s3).1 = .unexpected j) :
    hostDecodeGroups (s0 :: s1 :: s2 :: s3 :: rest) acc s = some (.unexpectedCharacter (s.dpos + BitVec.ofNat 32 j),
      raiseDecodeError .unexpectedCharacter (s.dpos + BitVec.ofNat 32 j) s) := by
  have asked := ask_of_exec rfl (exec_dgrp_of_unexpected active verdict) rfl
  rw [hostDecodeGroups, asked]
  simp [DErr.status, Status.code]

theorem hostDecodeGroups_of_badPadding (active : s.dstate = .active)
    (verdict : validate (decide (s.drem = 1)) (inv s0).1 (inv s1).1 (inv s2).1 (inv s3).1 = .badPadding) :
    hostDecodeGroups (s0 :: s1 :: s2 :: s3 :: rest) acc s =
      some (.invalidPadding, raiseDecodeError .invalidPadding 0 s) := by
  have asked := ask_of_exec rfl (exec_dgrp_of_badPadding active verdict) rfl
  rw [hostDecodeGroups, asked]
  simp [DErr.status, Status.code]

theorem hostDecodeGroups_of_accepted {npad : Nat} (active : s.dstate = .active) (small : npad < 3)
    (verdict : validate (decide (s.drem = 1)) (inv s0).1 (inv s1).1 (inv s2).1 (inv s3).1 = .accepted npad) :
    hostDecodeGroups (s0 :: s1 :: s2 :: s3 :: rest) acc s =
      hostDecodeGroups rest (acc ++ groupBytes npad (collapse (inv s0).2 (inv s1).2 (inv s2).2 (inv s3).2))
        (acceptGroup (decide (s.drem = 1)) npad (inv s0).2 (inv s1).2 (inv s2).2 (inv s3).2 s) := by
  have asked := ask_of_exec rfl (exec_dgrp_of_accepted active verdict) (acceptGroup_pending ..)
  rw [hostDecodeGroups, asked]
  simp [bytesOf_accepted small, Status.code]

/-! What an accepted group holds (R88). -/

theorem not_unexpectedAt_of_accepted {fin : Bool} {c0 c1 c2 c3 : SymClass} {n k : Nat}
    (verdict : validate fin c0 c1 c2 c3 = .accepted n) (small : k < 4) :
    ¬ unexpectedAt fin k ([c0, c1, c2, c3].getD k .data) = true := by
  unfold validate at verdict
  split_ifs at verdict with cause0 cause1 cause2 cause3
  interval_cases k
  exacts [cause0, cause1, cause2, cause3]

theorem padCount_of_accepted {fin : Bool} {c0 c1 c2 c3 : SymClass} {n : Nat}
    (verdict : validate fin c0 c1 c2 c3 = .accepted n) :
    padCount c0 + padCount c1 + padCount c2 + padCount c3 = n ∧ n < 3 ∧ (fin = false → n = 0) := by
  rcases validate_cases fin c0 c1 c2 c3 with
    ⟨j, other, -⟩ | ⟨other, -⟩ | ⟨same, rfl, rfl, rfl, rfl⟩ | ⟨same, rfl, rfl, rfl, rfl, rfl⟩ |
      ⟨same, rfl, rfl, rfl, rfl, rfl⟩
  · cases verdict.symm.trans other
  · cases verdict.symm.trans other
  all_goals
    cases verdict.symm.trans same
    decide +revert

theorem count_padSymbol_group (s0 s1 s2 s3 : Byte) (rest : List Byte) :
    (s0 :: s1 :: s2 :: s3 :: rest).count padSymbol =
      padCount (inv s0).1 + padCount (inv s1).1 + padCount (inv s2).1 + padCount (inv s3).1 +
        rest.count padSymbol := by
  simp only [List.count_cons, padCount, inv_class_pad_iff, beq_iff_eq, padSymbol]
  omega

/-! Causes of `UnexpectedCharacter` in the whole text (R91, R103). -/

/-- The octet `k` of the text is `INVALID`, or a padding symbol before the last two positions. -/
def TextCause (text : List Byte) (k : Nat) : Prop :=
  ∃ c, text[k]? = some c ∧ ((inv c).1 = .invalid ∨ (c = 0x3D ∧ k + 2 < text.length))

theorem textCause_add_four (k : Nat) : TextCause (s0 :: s1 :: s2 :: s3 :: rest) (k + 4) ↔ TextCause rest k := by
  simp only [TextCause, List.getElem?_cons_succ, List.length_cons]
  refine exists_congr fun c => and_congr_right fun _ => or_congr_right (and_congr_right fun _ => ?_)
  omega

theorem Expects.textCause_iff (h : Expects s (s0 :: s1 :: s2 :: s3 :: rest)) {k : Nat} (small : k < 4) :
    TextCause (s0 :: s1 :: s2 :: s3 :: rest) k ↔ HasCause s [s0, s1, s2, s3] k := by
  have position : k + 2 < rest.length + 4 ↔ (s.drem ≠ 1 ∨ k < 2) := by
    have groups := h.groups
    rw [ne_eq, h.last_iff, ← List.length_eq_zero_iff]
    simp only [List.length_cons] at groups
    omega
  simp only [TextCause, HasCause, List.length_cons, position]
  interval_cases k <;> simp

end

/-- The lowest position of the text with a cause. -/
def LowestCause (text : List Byte) (k : Nat) : Prop := TextCause text k ∧ ∀ j, j < k → ¬ TextCause text j

/-! The result of the groups of a text (R91, R93, R120). -/

/-- What the loop over `text`, begun in `s` with `acc` and ended in `t`, says by its result. -/
def GroupsOutcome (text acc : List Byte) (s t : State) : DecodeResult → Prop
  | .bytes b => b.length + text.count padSymbol = acc.length + 3 * (text.length / 4) ∧ text.count padSymbol ≤ 2 ∧
      t.dstate = .done
  | .unexpectedCharacter p => (∃ k, p.toNat = s.dpos.toNat + k ∧ LowestCause text k) ∧ t.dstate = .error ∧
      t.derr = .unexpectedCharacter ∧ t.derrpos = p
  | .invalidPadding => True
  | .invalidLength => False
  | .notExpressible => False

section
variable {s : State} {s0 s1 s2 s3 : Byte} {rest acc : List Byte}

theorem groupsOutcome_of_unexpected {j : Nat} (h : Expects s (s0 :: s1 :: s2 :: s3 :: rest))
    (verdict : validate (decide (s.drem = 1)) (inv s0).1 (inv s1).1 (inv s2).1 (inv s3).1 = .unexpected j) :
    let p := s.dpos + BitVec.ofNat 32 j
    GroupsOutcome (s0 :: s1 :: s2 :: s3 :: rest) acc s (raiseDecodeError .unexpectedCharacter p s)
      (.unexpectedCharacter p) := by
  obtain ⟨small, cause, lowest⟩ := lowest_cause_of_unexpected verdict
  have fits := h.fits
  simp only [List.length_cons] at fits
  refine ⟨⟨j, by bv_omega, (h.textCause_iff small).2 cause, fun k lower => ?_⟩, rfl, rfl, rfl⟩
  exact mt (h.textCause_iff (lower.trans small)).1 (lowest k lower)

theorem groupBytes_length (npad : Nat) (bs : Byte × Byte × Byte) :
    (groupBytes npad bs).length = 3 - npad := by
  simp [groupBytes]

/-- The last group accepted ends the stream. -/
theorem groupsOutcome_of_last {npad : Nat} (last : s.drem = 1)
    (verdict : validate (decide (s.drem = 1)) (inv s0).1 (inv s1).1 (inv s2).1 (inv s3).1 = .accepted npad)
    (bs : Byte × Byte × Byte) (v0 v1 v2 v3 : Index) :
    GroupsOutcome [s0, s1, s2, s3] acc s (acceptGroup (decide (s.drem = 1)) npad v0 v1 v2 v3 s)
      (.bytes (acc ++ groupBytes npad bs)) := by
  obtain ⟨pads, small, -⟩ := padCount_of_accepted verdict
  refine ⟨?_, ?_, by rw [acceptGroup_dstate, decide_eq_true last, if_pos rfl]⟩ <;>
    rw [count_padSymbol_group, pads, List.count_nil]
  · rw [List.length_append, groupBytes_length]
    simp
    omega
  · omega

/-- A group accepted before the last one has no pad and no cause, so the outcome is that of the rest. -/
theorem groupsOutcome_of_more {npad : Nat} {t u : State} {r : DecodeResult}
    (h : Expects s (s0 :: s1 :: s2 :: s3 :: rest)) (more : s.drem ≠ 1)
    (verdict : validate (decide (s.drem = 1)) (inv s0).1 (inv s1).1 (inv s2).1 (inv s3).1 = .accepted npad)
    (bs : Byte × Byte × Byte) (dpos : t.dpos = s.dpos + 4)
    (outcome : GroupsOutcome rest (acc ++ groupBytes npad bs) t u r) :
    GroupsOutcome (s0 :: s1 :: s2 :: s3 :: rest) acc s u r := by
  obtain ⟨pads, -, noPad⟩ := padCount_of_accepted verdict
  obtain rfl := noPad (decide_eq_false more)
  cases r with
  | bytes b =>
    obtain ⟨length, few, done⟩ := outcome
    rw [List.length_append, groupBytes_length] at length
    refine ⟨?_, ?_, done⟩ <;> rw [count_padSymbol_group, pads]
    · simp only [List.length_cons]
      omega
    · omega
  | unexpectedCharacter p =>
    obtain ⟨⟨k, position, cause, lowest⟩, registers⟩ := outcome
    have fits := h.fits
    simp only [List.length_cons] at fits
    refine ⟨⟨k + 4, by rw [position, dpos]; bv_omega, (textCause_add_four k).2 cause, fun j lower => ?_⟩, registers⟩
    by_cases small : j < 4
    · rw [h.textCause_iff small, ← unexpectedAt_iff_hasCause s s0 s1 s2 s3 small]
      exact not_unexpectedAt_of_accepted verdict small
    · obtain ⟨i, rfl⟩ := Nat.exists_eq_add_of_le' (Nat.le_of_not_lt small)
      rw [textCause_add_four]
      exact lowest i (by omega)
  | invalidPadding => trivial
  | invalidLength => exact outcome
  | notExpressible => exact outcome

end

theorem hostDecodeGroups_outcome (text acc : List Byte) (s : State) (h : Expects s text) :
    ∃ r t, hostDecodeGroups text acc s = some (r, t) ∧ GroupsOutcome text acc s t r := by
  obtain ⟨s0, s1, s2, s3, rest, rfl⟩ := h.exists_group
  cases verdict : validate (decide (s.drem = 1)) (inv s0).1 (inv s1).1 (inv s2).1 (inv s3).1 with
  | unexpected j => exact ⟨_, _, hostDecodeGroups_of_unexpected h.active verdict, groupsOutcome_of_unexpected h verdict⟩
  | badPadding => exact ⟨_, _, hostDecodeGroups_of_badPadding h.active verdict, trivial⟩
  | accepted npad =>
    obtain ⟨-, small, -⟩ := padCount_of_accepted verdict
    rw [hostDecodeGroups_of_accepted h.active small verdict]
    by_cases last : s.drem = 1
    · obtain rfl := h.last_iff.1 last
      exact ⟨_, _, hostDecodeGroups_nil .., groupsOutcome_of_last last verdict _ _ _ _ _⟩
    · have tail := h.tail (mt h.last_iff.2 last) npad (inv s0).2 (inv s1).2 (inv s2).2 (inv s3).2
      rw [decide_eq_false last]
      obtain ⟨r, t, run, outcome⟩ := hostDecodeGroups_outcome rest
        (acc ++ groupBytes npad (collapse (inv s0).2 (inv s1).2 (inv s2).2 (inv s3).2)) _ tail
      exact ⟨r, t, run, groupsOutcome_of_more h last verdict _ rfl outcome⟩
termination_by text.length

/-! ## `decode`: by the length of the text -/

theorem length_toNat {text : List Byte} (short : text.length < 2 ^ 32) :
    (BitVec.ofNat 32 text.length).toNat = text.length := Nat.mod_eq_of_lt short

theorem hostDecode_of_ask {text : List Byte} {s t : State} {r : RspWord} (short : text.length < 2 ^ 32)
    (asked : ask (.dstart (BitVec.ofNat 32 text.length)) s = some (r, t)) :
    hostDecode text s = if rspStatus r = 1 then some (.invalidLength, t)
      else if rspLast r then some (.bytes [], t) else hostDecodeGroups text [] t := by
  rw [hostDecode, if_pos short, asked]

/-- What `DSTART` of the text's length decides (R12, R85, R120). -/
theorem hostDecode_cases {text : List Byte} (short : text.length < 2 ^ 32) (s : State) :
    (text.length % 4 ≠ 0 ∧ ∃ t, hostDecode text s = some (.invalidLength, t)) ∨
    (text = [] ∧ ∃ t, hostDecode text s = some (.bytes [], t) ∧ t.dstate = .done) ∨
    (text.length % 4 = 0 ∧
      ∃ t, Expects t text ∧ t.dpos = 0 ∧ hostDecode text s = hostDecodeGroups text [] t) := by
  have number := length_toNat short
  have notOne (l : Bool) : rspStatus (packRsp .ok 0 l 0) ≠ 1 := by simp [Status.code]
  have wf : (Instr.dstart (BitVec.ofNat 32 text.length)).wf = true := rfl
  rcases execDstart_cases (BitVec.ofNat 32 text.length) s with ⟨bad, run⟩ | ⟨zero, run⟩ | ⟨aligned, nonzero, run⟩
  · rw [number] at bad
    exact .inl ⟨bad, _, (hostDecode_of_ask short (ask_of_exec wf run rfl)).trans (if_pos (rspStatus_packRsp ..))⟩
  · have empty : text = [] := by
      rw [← List.length_eq_zero_iff, ← number, zero]
      rfl
    exact .inr (.inl ⟨empty, _, (hostDecode_of_ask short (ask_of_exec wf run rfl)).trans
      ((if_neg (notOne true)).trans (if_pos (rspLast_packRsp ..))), rfl⟩)
  · rw [number] at aligned
    have nonempty : text ≠ [] := by
      rintro rfl
      exact nonzero rfl
    refine .inr (.inr ⟨aligned, _, ⟨rfl, ?groups, ?fits, nonempty⟩, rfl, (hostDecode_of_ask short
      (ask_of_exec wf run rfl)).trans ((if_neg (notOne false)).trans (if_neg (by simp)))⟩)
    case groups =>
      rw [respond_drem, BitVec.toNat_ushiftRight, number, Nat.shiftRight_eq_div_pow]
      omega
    case fits =>
      rw [respond_dpos]
      simpa using short

theorem hostDecode_of_long {text : List Byte} (long : 2 ^ 32 ≤ text.length) (s : State) :
    hostDecode text s = some (.notExpressible, s) := if_neg (by omega)

/-- Settles O52: the length decides as `hostDecode_cases` says, and the groups never answer one of its results. -/
theorem hostDecodeByLength : Obligations.HostDecodeByLength := by
  intro text s
  by_cases long : 2 ^ 32 ≤ text.length
  · refine ⟨_, s, hostDecode_of_long long s, iff_of_true rfl long, iff_of_false (by simp) (by omega), ?_⟩
    rintro rfl
    simp at long
  have short : text.length < 2 ^ 32 := by omega
  rcases hostDecode_cases short s with ⟨bad, t, run⟩ | ⟨rfl, t, run, done⟩ | ⟨aligned, u, expects, -, run⟩
  · refine ⟨_, t, run, iff_of_false (by simp) long, iff_of_true rfl ⟨short, bad⟩, ?_⟩
    rintro rfl
    exact absurd rfl bad
  · exact ⟨_, t, run, by simp, by simp, fun _ => ⟨rfl, done⟩⟩
  · obtain ⟨r, t, groups, outcome⟩ := hostDecodeGroups_outcome text [] u expects
    refine ⟨r, t, run.trans groups, iff_of_false ?_ long, iff_of_false ?_ (fun h => h.2 aligned),
      fun empty => absurd empty expects.nonempty⟩
    · rintro rfl
      exact outcome
    · rintro rfl
      exact outcome

/-- Every result of `decode` other than those the length decides is the outcome of the groups. -/
theorem hostDecode_result {text : List Byte} {s t : State} {r : DecodeResult} (run : hostDecode text s = some (r, t)) :
    r = .notExpressible ∨ r = .invalidLength ∨ (text = [] ∧ r = .bytes [] ∧ t.dstate = .done) ∨
      (text.length % 4 = 0 ∧ ∃ u, u.dpos = 0 ∧ GroupsOutcome text [] u t r) := by
  by_cases long : 2 ^ 32 ≤ text.length
  · cases run.symm.trans (hostDecode_of_long long s)
    exact .inl rfl
  rcases hostDecode_cases (Nat.lt_of_not_le long) s with
    ⟨-, t', run'⟩ | ⟨empty, t', run', done⟩ | ⟨aligned, u, expects, start, run'⟩
  · cases run.symm.trans run'
    exact .inr (.inl rfl)
  · cases run.symm.trans run'
    exact .inr (.inr (.inl ⟨empty, rfl, done⟩))
  · obtain ⟨r', t', groups, outcome⟩ := hostDecodeGroups_outcome text [] u expects
    cases run.symm.trans (run'.trans groups)
    exact .inr (.inr (.inr ⟨aligned, u, start, outcome⟩))

/-- Settles O53: the outcome of the groups for a buffer. -/
theorem hostDecodeLengthLaw : Obligations.HostDecodeLengthLaw := by
  intro text b s t run
  rcases hostDecode_result run with h | h | ⟨rfl, h, done⟩ | ⟨aligned, u, -, length, few, done⟩
  · cases h
  · cases h
  · cases h
    exact ⟨rfl, rfl, Nat.zero_le _, done⟩
  · exact ⟨aligned, by simpa using length, few, done⟩

/-- Settles O54: the outcome of the groups for `UnexpectedCharacter`, counted from the start of the text. -/
theorem hostDecodeErrorPosition : Obligations.HostDecodeErrorPosition := by
  intro text p s t run cause
  rcases hostDecode_result run with h | h | ⟨-, h, -⟩ | ⟨-, u, start, ⟨k, position, found, lowest⟩, registers⟩
  · cases h
  · cases h
  · cases h
  · have atK : p.toNat = k := by simpa [start] using position
    rw [atK]
    exact ⟨found, lowest, registers⟩

/-! ## The round trip -/

/-- `COLLAPSE` puts the lanes of `SPLIT` together again. -/
theorem collapse_lanes (a b c : Byte) :
    collapse (lane (byteGroup a b c) 0) (lane (byteGroup a b c) 1) (lane (byteGroup a b c) 2)
      (lane (byteGroup a b c) 3) = (a, b, c) := by
  simp only [collapse, Prod.mk.injEq]
  refine ⟨?_, ?_, ?_⟩ <;> apply BitVec.eq_of_toNat_eq <;>
    rw [toNat_extract, toNat_cat_6_6_6_6, lane_toNat, lane_toNat, lane_toNat, lane_toNat, byteGroup_toNat] <;> omega

theorem lane_3_of_two_bytes (a b : Byte) : lane (byteGroup a b 0) 3 = 0 := by
  apply BitVec.eq_of_toNat_eq
  rw [lane_toNat, byteGroup_toNat]
  simp
  omega

theorem lane_2_of_one_byte (a : Byte) : lane (byteGroup a 0 0) 2 = 0 := by
  apply BitVec.eq_of_toNat_eq
  rw [lane_toNat, byteGroup_toNat]
  simp
  omega

theorem encodeText_eq_nil_iff (b : List Byte) : encodeText b = [] ↔ b = [] := by
  rw [← List.length_eq_zero_iff, encodeText_length, ← List.length_eq_zero_iff]
  omega

theorem inv_padSymbol : inv padSymbol = (.pad, 0) := rfl

/-- A group of two symbols of the alphabet, then symbols of the classes `c2` and `c3`, that the validator accepts. -/
theorem hostDecodeGroups_of_inv {s : State} {s0 s1 s2 s3 : Byte} {v0 v1 v2 v3 : Index} {c2 c3 : SymClass} {npad : Nat}
    (active : s.dstate = .active) (small : npad < 3) (inv0 : inv s0 = (.data, v0)) (inv1 : inv s1 = (.data, v1))
    (inv2 : inv s2 = (c2, v2)) (inv3 : inv s3 = (c3, v3))
    (verdict : validate (decide (s.drem = 1)) .data .data c2 c3 = .accepted npad) (rest acc : List Byte) :
    hostDecodeGroups (s0 :: s1 :: s2 :: s3 :: rest) acc s =
      hostDecodeGroups rest (acc ++ groupBytes npad (collapse v0 v1 v2 v3))
        (acceptGroup (decide (s.drem = 1)) npad v0 v1 v2 v3 s) := by
  rw [hostDecodeGroups_of_accepted active small (by rw [inv0, inv1, inv2, inv3]; exact verdict), inv0, inv1, inv2, inv3]

theorem hostDecodeGroups_groupText {s : State} (active : s.dstate = .active) (a b c : Byte) (rest acc : List Byte) :
    let g := byteGroup a b c
    hostDecodeGroups (groupText g ++ rest) acc s = hostDecodeGroups rest (acc ++ [a, b, c])
      (acceptGroup (decide (s.drem = 1)) 0 (lane g 0) (lane g 1) (lane g 2) (lane g 3) s) := by
  have verdict : validate (decide (s.drem = 1)) .data .data .data .data = .accepted 0 := by
    cases decide (s.drem = 1) <;> rfl
  have symbol (k : Nat) := inv_alpha (lane (byteGroup a b c) k)
  have run := hostDecodeGroups_of_inv active (by omega) (symbol 0) (symbol 1) (symbol 2) (symbol 3) verdict rest acc
  rw [collapse_lanes] at run
  exact run

theorem hostDecodeGroups_two_bytes {s : State} (active : s.dstate = .active) (last : s.drem = 1) (a b : Byte)
    (acc : List Byte) : ∃ t, hostDecodeGroups (encodeText [a, b]) acc s = some (.bytes (acc ++ [a, b]), t) := by
  have verdict : validate (decide (s.drem = 1)) .data .data .data .pad = .accepted 1 := by rw [last]; rfl
  have symbol (k : Nat) := inv_alpha (lane (byteGroup a b 0) k)
  have run := hostDecodeGroups_of_inv active (by omega) (symbol 0) (symbol 1) (symbol 2) inv_padSymbol verdict [] acc
  rw [← lane_3_of_two_bytes a b, collapse_lanes] at run
  exact ⟨_, run⟩

theorem hostDecodeGroups_one_byte {s : State} (active : s.dstate = .active) (last : s.drem = 1) (a : Byte)
    (acc : List Byte) : ∃ t, hostDecodeGroups (encodeText [a]) acc s = some (.bytes (acc ++ [a]), t) := by
  have verdict : validate (decide (s.drem = 1)) .data .data .pad .pad = .accepted 2 := by rw [last]; rfl
  have symbol (k : Nat) := inv_alpha (lane (byteGroup a 0 0) k)
  have run := hostDecodeGroups_of_inv active (by omega) (symbol 0) (symbol 1) inv_padSymbol inv_padSymbol verdict [] acc
  have whole := collapse_lanes a 0 0
  rw [lane_2_of_one_byte, lane_3_of_two_bytes] at whole
  rw [whole] at run
  exact ⟨_, run⟩

theorem hostDecodeGroups_encodeText (b acc : List Byte) (s : State) (h : Expects s (encodeText b)) :
    ∃ t, hostDecodeGroups (encodeText b) acc s = some (.bytes (acc ++ b), t) := by
  induction b using encodeText.induct generalizing acc s with
  | case1 a b c rest ih =>
    rw [encodeText, hostDecodeGroups_groupText h.active]
    by_cases last : encodeText rest = []
    · rw [last, (encodeText_eq_nil_iff rest).1 last]
      exact ⟨_, hostDecodeGroups_nil ..⟩
    · have more : s.drem ≠ 1 := mt (Expects.last_iff h).1 last
      obtain ⟨t, run⟩ := ih (acc ++ [a, b, c]) _ (Expects.tail h last 0 _ _ _ _)
      exact ⟨t, by rw [decide_eq_false more, run, List.append_assoc]; rfl⟩
  | case2 a b => exact hostDecodeGroups_two_bytes h.active ((Expects.last_iff h).2 rfl) a b acc
  | case3 a => exact hostDecodeGroups_one_byte h.active ((Expects.last_iff h).2 rfl) a acc
  | case4 => exact absurd rfl h.nonempty

/-- Settles O55: the stream started for the text accepts each group of it and gives its bytes back. -/
theorem hostRoundTrip : Obligations.HostRoundTrip := by
  intro b s fits
  obtain ⟨t, encoded, -⟩ := hostEncode_eq b s
  rw [← encodeText_length] at fits
  rcases hostDecode_cases fits t with ⟨bad, -⟩ | ⟨empty, u, run, -⟩ | ⟨-, v, expects, -, run⟩
  · exact absurd (by rw [encodeText_length, Nat.mul_mod_right]) bad
  · have noBytes : b = [] := (encodeText_eq_nil_iff b).1 empty
    exact ⟨_, t, u, encoded, noBytes ▸ run⟩
  · obtain ⟨u, groups⟩ := hostDecodeGroups_encodeText b [] v expects
    exact ⟨_, t, u, encoded, run.trans groups⟩

end Sys2Proof.Machine
end
